-- ==== Sys2Proof/Word.lean ====
section
/-! DEFINITION. The words of the hub: bytes, frame numbers, complex samples (R1), and tables of a fixed number of rows. -/
namespace Sys2Proof

/-- One byte of a frame or cell (R207). -/
abbrev Byte := BitVec 8

/-- HFN, TFN and the HFN echo of a section: numbers that count modulo 65536 (section 5.6 of 00_scope.md). -/
abbrev FrameNo := BitVec 16

/-- One complex sample: I and Q, each a signed 16-bit integer (R1). -/
structure Sample where
  i : BitVec 16
  q : BitVec 16
  deriving DecidableEq, Repr

/-- A fixed number of like records, addressed by number: a register file, a lane table, a carrier table. -/
structure Table (α : Type) (n : Nat) where
  rows : Vector α n
  deriving DecidableEq, Repr

namespace Table

variable {α : Type} {n : Nat}

/-- The record of number `i`. -/
def get (t : Table α n) (i : Fin n) : α := t.rows[i.val]'i.isLt

/-- The table with record `i` replaced. -/
def put (t : Table α n) (i : Fin n) (x : α) : Table α n := ⟨t.rows.set i.val x i.isLt⟩

/-- The table whose record `i` is `f i`. -/
def make (f : Fin n → α) : Table α n := ⟨Vector.ofFn f⟩

/-- The table whose records are all `x`. -/
def fill (x : α) : Table α n := ⟨Vector.replicate n x⟩

/-- The table with record `i` changed by `f`. -/
def edit (t : Table α n) (i : Fin n) (f : α → α) : Table α n := t.put i (f (t.get i))

@[simp] theorem get_put_self (t : Table α n) (i : Fin n) (x : α) : (t.put i x).get i = x := by
  simp [get, put]

@[simp] theorem get_put_ne (t : Table α n) {i j : Fin n} (x : α) (h : i ≠ j) :
    (t.put i x).get j = t.get j := by
  have hv : i.val ≠ j.val := fun e => h (Fin.ext e)
  simp [get, put, Vector.getElem_set_ne, hv]

theorem get_put (t : Table α n) (i j : Fin n) (x : α) :
    (t.put i x).get j = if i = j then x else t.get j := by
  by_cases h : i = j
  · subst h; simp
  · simp [h]

@[simp] theorem get_make (f : Fin n → α) (i : Fin n) : (make f).get i = f i := by
  simp [get, make]

@[simp] theorem get_fill (x : α) (i : Fin n) : (fill x : Table α n).get i = x := by
  simp [get, fill]

@[simp] theorem get_edit_self (t : Table α n) (i : Fin n) (f : α → α) :
    (t.edit i f).get i = f (t.get i) := by simp [edit]

@[simp] theorem get_edit_ne (t : Table α n) {i j : Fin n} (f : α → α) (h : i ≠ j) :
    (t.edit i f).get j = t.get j := by simp [edit, h]

theorem get_edit (t : Table α n) (i j : Fin n) (f : α → α) :
    (t.edit i f).get j = if i = j then f (t.get i) else t.get j := by
  simp [edit, get_put]

/-- Two tables with the same records are the same table. -/
@[ext] theorem ext {t u : Table α n} (h : ∀ i, t.get i = u.get i) : t = u := by
  cases t; cases u
  congr 1
  apply Vector.ext
  intro i hi
  exact h ⟨i, hi⟩

end Table

/-- The 24 complex samples of one lane for one slot (R1). -/
abbrev LaneBlock := Table Sample 24

/-- C0..C63 (R5). -/
abbrev CarrierId := Fin 64
/-- G0..G7 (R22). -/
abbrev GroupId := Fin 8
/-- L0..L31 of a group (R28). -/
abbrev LaneId := Fin 32
/-- T0..T47 of a trunk frame. -/
abbrev TrunkLane := Fin 48
/-- Span port 0..7 (R69). -/
abbrev SpanId := Fin 8
/-- Remote position 1..6, numbered here from 0: index `k` is position `k + 1` (R74). -/
abbrev Pos := Fin 6
/-- Store block 0..31 (R161). -/
abbrev BlockId := Fin 32
/-- Store page 0..2047 (R161). -/
abbrev PageId := Fin 2048
/-- M0..M47 (R175). -/
abbrev MessageId := Fin 48
/-- Incident level 0 NORMAL, 1 ALERT, 2 INCIDENT, 3 EVACUATION. -/
abbrev Level := Fin 4
/-- A set of groups: bit g for group g (Table 11-5). -/
abbrev GroupSet := BitVec 8

end Sys2Proof
end

