-- ==== Sys2Proof/Syntax.lean ====
section
/-! DEFINITION. The commands of the hub: one constructor per row of the table of operations and events, with the operands the spec gives each.

Operands of a request are the raw values of its argument bytes (Table 11-5): a carrier number may be 64 or above, and the request is then refused RANGE. -/
namespace Sys2Proof

/-- Trunk port A or B. -/
inductive TrunkId where
  | a
  | b
  deriving DecidableEq, Repr

/-- The side of a remote: the span port through which it is reached (R23). -/
inductive Side where
  | a
  | b
  deriving DecidableEq, Repr

/-- The break-in players (R139). -/
inductive PlayerId where
  | bp0
  | bp1
  deriving DecidableEq, Repr

/-- The result of a store operation or settings save, decided by the storage (section 5.7 of 00_scope.md). -/
inductive StoreResult where
  | pass
  | fail
  deriving DecidableEq, Repr

/-- The order in which the mixer, the span side (missed slots, then the close) and the break-in unit do their work of
one slot event. The spec leaves it open; it shows only in the order in which their notices join the queue. -/
inductive WorkOrder where
  | mixerSpanPlayers
  | mixerPlayersSpan
  | spanMixerPlayers
  | spanPlayersMixer
  | playersMixerSpan
  | playersSpanMixer
  deriving DecidableEq, Repr

/-- The order in which the line sample and the requests of the two ports are taken at one slot event (R188, R193). -/
inductive TailOrder where
  | lineAB
  | lineBA
  | aLineB
  | bLineA
  | abLine
  | baLine
  deriving DecidableEq, Repr

/-- The orders within one slot event that the spec leaves open. -/
structure SlotOrder where
  /-- The order of the blocks' work. -/
  works : WorkOrder
  /-- The order of line sample and requests. -/
  tail : TailOrder
  /-- A holdover expiry is taken before the settlement (R129). -/
  expiryFirst : Bool
  /-- An RDREC of this slot is taken before the mixer's work (R67). -/
  readsBeforeMixer : Bool
  /-- An RDREC of this slot is taken before the close (R113). -/
  readsBeforeClose : Bool
  deriving DecidableEq, Repr

/-- The arguments of CARSET (Table 11-5 code 2). -/
structure CarsetArgs where
  carrier : Nat
  kind : Nat
  rfCode : Nat
  dlSource : Nat
  ulDest : Nat
  groups : Nat
  dlGain : Nat
  ulGain : Nat
  sqOpen : Nat
  sqClose : Nat
  hang : Nat
  rank : Nat
  talkMode : Nat
  talkGain : Nat
  eligible : Nat
  startActive : Nat
  deriving DecidableEq, Repr

/-- The arguments of GRPSET (Table 11-5 code 7). -/
structure GrpsetArgs where
  group : Nat
  form : Nat
  remotes : Nat
  ceiling : Nat
  floor : Nat
  guard : Nat
  missLimit : Nat
  deriving DecidableEq, Repr

/-- The arguments of PROFSET (Table 11-5 code 11). -/
structure ProfsetArgs where
  row : Nat
  announceMask : Nat
  talkAuto : Nat
  broadcastPreempt : Nat
  shedRank : Nat
  protectBreakIn : Nat
  lineLevel : Nat
  deriving DecidableEq, Repr

/-- The arguments of ANNC (Table 11-5 code 12). -/
structure AnncArgs where
  tag : Nat
  message : Nat
  priority : Nat
  plays : Nat
  gap : Nat
  zones : Nat
  setForm : Nat
  carriers : Nat
  deriving DecidableEq, Repr

/-- The arguments of VOXSET (Table 11-5 code 14). -/
structure VoxsetArgs where
  deviation : Nat
  amplitude : Nat
  fadeStep : Nat
  liveGain : Nat
  deriving DecidableEq, Repr

/-- The arguments of MSGDEF (Table 11-5 code 20). -/
structure MsgdefArgs where
  message : Nat
  first : Nat
  count : Nat
  gain : Nat
  deriving DecidableEq, Repr

/-- The selector of RDREC with its argument bytes (Table 11-6). -/
inductive Selector where
  | carrier (carrier : Nat)
  | placement (carrier group : Nat)
  | group (group : Nat)
  | lane (group lane : Nat)
  | remote (group position : Nat)
  | context (group position side : Nat)
  | spanPort (port : Nat)
  | trunkPort (port : Nat)
  | reference
  | player (player : Nat)
  | queuePosition (position : Nat)
  | storeBlock (block : Nat)
  | storePage (page offset count : Nat)
  | storeStatus
  | message (message : Nat)
  | settingsState
  | profileRow (row : Nat)
  | incidentState
  | resetCauses
  deriving DecidableEq, Repr

/-- A management request with its arguments (Table 11-5). -/
inductive Request where
  | rdrec (sel : Selector) (part : Nat)
  | carset (args : CarsetArgs)
  | caron (carrier : Nat)
  | caroff (carrier : Nat)
  | carclr (carrier : Nat)
  | trim (carrier group value : Nat)
  | grpset (args : GrpsetArgs)
  | sprst (port : Nat)
  | incset (level : Nat)
  | incclr
  | profset (args : ProfsetArgs)
  | annc (args : AnncArgs)
  | ancan (tag : Nat)
  | voxset (args : VoxsetArgs)
  | pgopen (page : Nat)
  | pgdata (offset : Nat) (samples : List Byte)
  | pgcommit
  | blkerase (block : Nat)
  | blkguard (block bar : Nat)
  | msgdef (args : MsgdefArgs)
  | msgclr (message : Nat)
  | trksel (port : Nat)
  | timset (limit : Nat) (trim : Int)
  | save
  | restart (form : Nat)
  | causeclr
  deriving DecidableEq, Repr

/-- The commands, one per row of opcode_table.json. A request carries the trunk port that brought it and its tag. -/
inductive Instr where
  | slot (line : Bool) (order : SlotOrder)
  | holdoverExpiry
  | laneGuardExpiry (group : GroupId) (lane : LaneId)
  | overBudget (group : GroupId)
  | missLimitReached (group : GroupId) (pos : Pos) (side : Side)
  | hangExpiry (group : GroupId) (lane : LaneId) (pos : Pos)
  | fadeEnd (player : PlayerId)
  | gapEnd (player : PlayerId)
  | liveSpeechLoss (player : PlayerId)
  | trunkFrameArrival (port : TrunkId) (frame : List Byte)
  | spanUplinkFrameArrival (port : SpanId) (frame : List Byte)
  | rdrec (port : TrunkId) (tag : Nat) (sel : Selector) (part : Nat)
  | carset (port : TrunkId) (tag : Nat) (args : CarsetArgs)
  | caron (port : TrunkId) (tag : Nat) (carrier : Nat)
  | caroff (port : TrunkId) (tag : Nat) (carrier : Nat)
  | carclr (port : TrunkId) (tag : Nat) (carrier : Nat)
  | trim (port : TrunkId) (tag : Nat) (carrier group value : Nat)
  | grpset (port : TrunkId) (tag : Nat) (args : GrpsetArgs)
  | sprst (port : TrunkId) (tag : Nat) (span : Nat)
  | incset (port : TrunkId) (tag : Nat) (level : Nat)
  | incclr (port : TrunkId) (tag : Nat)
  | profset (port : TrunkId) (tag : Nat) (args : ProfsetArgs)
  | annc (port : TrunkId) (tag : Nat) (args : AnncArgs)
  | ancan (port : TrunkId) (tag : Nat) (announcement : Nat)
  | voxset (port : TrunkId) (tag : Nat) (args : VoxsetArgs)
  | pgopen (port : TrunkId) (tag : Nat) (page : Nat)
  | pgdata (port : TrunkId) (tag : Nat) (offset : Nat) (samples : List Byte)
  | pgcommit (port : TrunkId) (tag : Nat)
  | blkerase (port : TrunkId) (tag : Nat) (block : Nat)
  | blkguard (port : TrunkId) (tag : Nat) (block bar : Nat)
  | msgdef (port : TrunkId) (tag : Nat) (args : MsgdefArgs)
  | msgclr (port : TrunkId) (tag : Nat) (message : Nat)
  | trksel (port : TrunkId) (tag : Nat) (selected : Nat)
  | timset (port : TrunkId) (tag : Nat) (limit : Nat) (trim : Int)
  | save (port : TrunkId) (tag : Nat)
  | restart (port : TrunkId) (tag : Nat) (form : Nat)
  | causeclr (port : TrunkId) (tag : Nat)
  | storeProgramCompletion (result : StoreResult)
  | storeEraseCompletion (result : StoreResult)
  | settingsSaveCompletion (result : StoreResult)
  | powerOn
  | lineReset
  | restartTakesEffect
  | resetInputRelease
  | suppliesSteady
  deriving DecidableEq, Repr

end Sys2Proof
end

