-- ==== Sys2Proof/Decode.lean ====
section
/-! DEFINITION. The command a word of the table spells. No row of the table gives bits, so no word spells a command; the requests' own encoding (Table 11-5) is read by `Machine.parseRequest`. -/
namespace Sys2Proof

/-- The command that the word `w` of `nbits` bits spells by the table's bits: the table gives none. -/
def decodeTableWord (_nbits _w : Nat) : Option Instr := none

end Sys2Proof
end

