-- ==== Sys2Proof/Config.lean ====
section
/-! DEFINITION. The free values: what the spec leaves open. None has a body, so nothing can be proved of the value. -/
namespace Sys2Proof

/-- The rate the pacer's steering has reached (R126), in steps of 0.01 ppm over nominal, at the `k`-th slot taken while
LOCKED. The spec gives no number for it (entry 9). -/
opaque Config.steeredRate : Nat → Int

/-- The reason bits of a REMOTE_STATE notice whose context has no reason (Table 11-8 gives them no value; entry 12). -/
opaque Config.absentReasonBits : BitVec 2

/-- The lane bits of a PLACEMENT notice whose lane is absent (Table 11-8 gives them no value; entry 12). -/
opaque Config.absentLaneBits : BitVec 5

end Sys2Proof
end

