-- ==== Sys2Proof/Machine/Types.lean ====
section
/-! DEFINITION. The records the eleven blocks hold, each field named as the table of the spec that lists it. -/
namespace Sys2Proof.Machine

/-! ### Carrier table (chapter 1) -/

/-- R5. -/
inductive CarrierState where
  | free
  | defined
  | active
  deriving DecidableEq, Repr

/-- Table 1-2. -/
inductive CarrierKind where
  | mobile
  | rescue
  | broadcast
  deriving DecidableEq, Repr

/-- Table 1-2. -/
inductive TalkMode where
  | off
  | auto
  | on
  deriving DecidableEq, Repr

/-- R16. -/
inductive PlacementState where
  | waiting
  | held
  | shed
  deriving DecidableEq, Repr

/-- A placement record (R16); the state is absent while the carrier is DEFINED. -/
structure Placement where
  state : Option PlacementState
  trim : Nat
  deriving DecidableEq, Repr

/-- The fields of Table 1-2 but the placement set. -/
structure CarrierFields where
  kind : CarrierKind
  rfCode : Nat
  dlSource : Option TrunkLane
  ulDest : Option TrunkLane
  dlGain : Nat
  ulGain : Nat
  sqOpen : Nat
  sqClose : Nat
  hang : Nat
  rank : Nat
  talkMode : TalkMode
  talkGain : Nat
  eligible : Bool
  startActive : Bool
  deriving DecidableEq, Repr

/-- A carrier record. Its placement set is the set of groups that have a placement record (R16). -/
structure Carrier where
  state : CarrierState
  fields : CarrierFields
  placements : Table (Option Placement) 8
  deriving DecidableEq, Repr

/-! ### Lane allocator (chapter 2) -/

/-- R22, R23. -/
inductive GroupForm where
  | unused
  | chain
  | ring
  deriving DecidableEq, Repr

/-- Table 2-1. -/
structure GroupConfig where
  form : GroupForm
  remotes : Nat
  ceiling : Nat
  floor : Nat
  guard : Nat
  missLimit : Nat
  deriving DecidableEq, Repr

/-- R28. -/
inductive LaneState where
  | free
  | guard
  | live
  deriving DecidableEq, Repr

/-- A lane record (R28). -/
structure Lane where
  state : LaneState
  owner : Option CarrierId
  guardCount : Nat
  player : Option PlayerId
  deriving DecidableEq, Repr

/-- One group of the lane allocator: configuration, lane table and waiting list (R22, R28, R34). -/
structure Group where
  config : GroupConfig
  lanes : Table Lane 32
  waiting : List CarrierId
  deriving DecidableEq, Repr

/-- The outcome of a PLACEMENT notice (R39). -/
inductive PlacementOutcome where
  | granted
  | preempted
  | shed
  deriving DecidableEq, Repr

/-! ### Downlink mixer (chapter 3) -/

/-- R65. -/
inductive Episode where
  | quiet
  | over
  | reported
  deriving DecidableEq, Repr

/-- The values of a group's last limiter update (R67). -/
structure LimiterUpdate where
  hfn : FrameNo
  power : Nat
  protPower : Nat
  derate : Nat
  ceiling : Nat
  deriving DecidableEq, Repr

/-- A group's limiter state (R63, R65 to R68). -/
structure Limiter where
  factor : Nat
  envelope : Nat
  episode : Episode
  run : Nat
  protectedOver : Bool
  last : Option LimiterUpdate
  deriving DecidableEq, Repr

/-! ### Span interface (chapter 4) -/

/-- R69. -/
inductive SpanLink where
  | down
  | aligning
  | up
  deriving DecidableEq, Repr

/-- A span port record (R69). -/
structure SpanPort where
  link : SpanLink
  goodRun : Nat
  badRun : Nat
  arrived : Bool
  quiet : Nat
  goodFrames : Nat
  frameFaults : Nat
  missedSlots : Nat
  sectionFaults : Nat
  unknownSections : Nat
  deriving DecidableEq, Repr

/-- R74. -/
inductive Radiator where
  | ok
  | feederFault
  | paOff
  deriving DecidableEq, Repr

/-- R75. -/
inductive ContextState where
  | idle
  | waiting
  | tracking
  deriving DecidableEq, Repr

/-- R74. -/
inductive WaitReason where
  | new
  | order
  | silent
  deriving DecidableEq, Repr

/-- A side context (R74). -/
structure Context where
  state : ContextState
  reason : Option WaitReason
  expCount : BitVec 8
  expEcho : FrameNo
  missRun : Nat
  accepted : Nat
  orderFaults : Nat
  late : Nat
  unstarted : Nat
  deriving DecidableEq, Repr

/-- A remote record with its two side contexts (R74). -/
structure Remote where
  feed : Side
  inService : Bool
  headroom : Option (BitVec 2)
  radiator : Option Radiator
  ctxA : Context
  ctxB : Context
  deriving DecidableEq, Repr

/-! ### Frames and cells the hub sends (chapters 10 and 11) -/

/-- R127. -/
inductive RefState where
  | locked
  | holdover
  | freeRun
  deriving DecidableEq, Repr

/-- A remote directive (R90). -/
structure Directive where
  configured : Bool
  serve : Side
  inService : Bool
  deriving DecidableEq, Repr

/-- The lane mode sent in the lane map (R30). -/
inductive LaneMode where
  | idle
  | retuning
  | live
  deriving DecidableEq, Repr

/-- An entry of the lane map (R30). -/
structure MapEntry where
  mode : LaneMode
  rfCode : Nat
  deriving DecidableEq, Repr

/-- A span downlink frame (R91, Table 11-2). -/
structure DownlinkFrame where
  hfn : FrameNo
  timing : RefState
  level : Level
  directives : Table Directive 6
  laneMap : Table MapEntry 32
  blocks : Table LaneBlock 32
  deriving DecidableEq, Repr

/-- Table 10-1, numbered from 1 in this order (chapter 11). -/
inductive Status where
  | ok
  | accepted
  | malformed
  | range
  | state
  | inUse
  | noRoom
  | barred
  | busy
  | order
  | notActive
  | notFound
  deriving DecidableEq, Repr

/-- A response (R194): tag, kind code, status and body. -/
structure Response where
  tag : Nat
  kind : Nat
  status : Status
  body : List Byte
  deriving DecidableEq, Repr

/-- The outcome of an announcement (R139, R156). -/
inductive AnnOutcome where
  | completed
  | cancelled
  | sourceLost
  deriving DecidableEq, Repr

/-- The message an announcement request names (R135). -/
inductive MessageRef where
  | stored (m : MessageId)
  | live
  deriving DecidableEq, Repr

/-- The cause of the latest reset (R202). -/
inductive LastCause where
  | powerOn
  | line
  | restartKeep
  | restartReload
  | none
  deriving DecidableEq, Repr

/-- The reset-cause record (R202). -/
structure CauseRecord where
  powerOn : Bool
  line : Bool
  restart : Bool
  last : LastCause
  count : Nat
  deriving DecidableEq, Repr

/-- The settings outcome of a START notice (R205). -/
inductive SettingsOutcome where
  | loaded
  | absent
  | kept
  deriving DecidableEq, Repr

/-- The link state of a trunk port (R115). -/
inductive TrunkLink where
  | down
  | acquiring
  | up
  deriving DecidableEq, Repr

/-- The cause of a TRUNK_SWITCH (R120, R123). -/
inductive SwitchCause where
  | loss
  | select
  deriving DecidableEq, Repr

/-- The cause of an INCIDENT event (R185). -/
inductive IncidentCause where
  | line
  | command
  | profile
  deriving DecidableEq, Repr

/-- A notice: kind, subject and detail (Tables 10-3 and 11-8). -/
inductive Notice where
  | start (causes : CauseRecord) (settings : SettingsOutcome) (activated refused : Nat)
  | trunkState (port : TrunkId) (link : TrunkLink)
  | trunkSwitch (port : TrunkId) (cause : SwitchCause)
  | referenceState (ref : RefState)
  | spanState (port : SpanId) (link : SpanLink)
  | remoteState (group : GroupId) (pos : Pos) (side : Side) (state : ContextState) (reason : Option WaitReason)
  | remoteResync (group : GroupId) (pos : Pos) (side : Side) (expCount : BitVec 8) (expEcho : FrameNo) (count : BitVec 8) (echo : FrameNo)
  | remoteSide (group : GroupId) (pos : Pos) (side : Side)
  | remoteReport (group : GroupId) (pos : Pos) (headroom : BitVec 2) (radiator : Radiator)
  | sectionFault (port : SpanId) (position : BitVec 3) (echo : FrameNo) (radiator : BitVec 2)
  | placement (carrier : CarrierId) (group : GroupId) (outcome : PlacementOutcome) (lane : Option LaneId)
  | overBudget (group : GroupId) (envelope ceiling protPower : Nat)
  | protectedOver (group : GroupId) (protPower ceiling : Nat)
  | clipLane (group : GroupId) (lane : LaneId) (carrier : CarrierId) (components : Nat)
  | clipTrunk (lane : TrunkLane) (carrier : CarrierId) (components : Nat)
  | announceStart (tag : Nat) (player : PlayerId) (message : MessageRef) (plays : Nat)
  | announceRequeued (tag : Nat) (player : PlayerId) (plays : Nat)
  | announceEnd (tag : Nat) (outcome : AnnOutcome) (plays : Nat)
  | storeProgramDone (block : BlockId) (page : PageId) (result : StoreResult)
  | storeEraseDone (block : BlockId) (result : StoreResult)
  | settingsDone (result : StoreResult)
  | incident (effective latched commanded lineLevel : Level) (cause : IncidentCause)
  deriving DecidableEq, Repr

/-- An entry of the notice queue: its key is the kind and subject of the latest notice, which all its notices share (R197). -/
structure Entry where
  latest : Notice
  count : Nat
  deriving DecidableEq, Repr

/-- A notice as sent: the entry taken and the lost flag as it stood (R198). -/
structure SentNotice where
  entry : Entry
  lost : Bool
  deriving DecidableEq, Repr

/-- The status summary of an uplink trunk frame (R201). -/
structure Summary where
  ref : RefState
  active : Option TrunkId
  level : Level
  notices : Nat
  lost : Bool
  deriving DecidableEq, Repr

/-- An uplink trunk frame (R124, Table 11-1). -/
structure UplinkFrame where
  hfn : FrameNo
  summary : Summary
  control : Option Response
  notice : Option SentNotice
  lanes : Table LaneBlock 48
  deriving DecidableEq, Repr

/-! ### Trunk interface and pacer (chapter 6) -/

/-- R120. -/
inductive Role where
  | active
  | standby
  | none
  deriving DecidableEq, Repr

/-- A trunk port record (R115); a frame in the FIFO is its bytes, not judged before its consumption (R116). -/
structure TrunkPort where
  fifo : List (List Byte)
  link : TrunkLink
  goodRun : Nat
  badRun : Nat
  role : Role
  lastTfn : Option FrameNo
  goodFrames : Nat
  checkFaults : Nat
  misses : Nat
  slips : Nat
  tfnGaps : Nat
  deriving DecidableEq, Repr

/-- The trunk interface: both port records, the port ACTIVE as settled by the consumption of the slot in course, whose role
goes with the control cells handed over (R121, R191), and the uplink trunk frame last sent on each port (R115, R124). -/
structure TrunkSide where
  a : TrunkPort
  b : TrunkPort
  settled : Option TrunkId
  outA : Option UplinkFrame
  outB : Option UplinkFrame
  deriving DecidableEq, Repr

/-- The frame pacer and reference supervisor (R125 to R128). `hfn` is the HFN of the latest slot event since the last
reset. `heldRate` counts steps of 0.01 ppm over nominal; `rateDraws` is the model's own counter of the free value that
stands for the steered rate (entry 9). -/
structure Pacer where
  hfn : Option FrameNo
  ref : RefState
  holdCount : Nat
  holdLimit : Nat
  trim : Int
  heldRate : Int
  rateDraws : Nat
  deriving DecidableEq, Repr

/-! ### Uplink combiner (chapter 5) -/

/-- A section filed in a window slot under (remote, side) (R96). -/
structure Filed where
  group : GroupId
  pos : Pos
  side : Side
  blocks : Table LaneBlock 32
  deriving DecidableEq, Repr

/-- An open slot of the combine window (R96). -/
structure WindowSlot where
  hfn : FrameNo
  filed : List Filed
  deriving DecidableEq, Repr

/-- R100. -/
inductive GateState where
  | closed
  | opened
  | hang
  deriving DecidableEq, Repr

/-- A squelch gate (R100). -/
structure Gate where
  state : GateState
  hang : Nat
  deriving DecidableEq, Repr

/-- The 1536 gates by group, lane and position (R100). -/
abbrev Gates := Table (Table (Table Gate 6) 32) 8

/-- An entry of a talk-through history (R109). -/
structure HistoryEntry where
  hfn : FrameNo
  block : LaneBlock
  deriving DecidableEq, Repr

/-- The last close at which a carrier formed a sum (R113). -/
structure LastClose where
  hfn : FrameNo
  contributions : Nat
  saturated : Nat
  deriving DecidableEq, Repr

/-- The uplink combiner; `uplink` holds the uplink lane blocks formed at the close made by the latest slot event (R108). -/
structure Combiner where
  window : List WindowSlot
  gates : Gates
  history : Table (List HistoryEntry) 64
  lastClose : Table (Option LastClose) 64
  lastClosed : Option FrameNo
  uplink : Table LaneBlock 48
  deriving DecidableEq, Repr

/-- The span interface: ports, remotes by group and position, and the frame sent on each port at the latest slot event. -/
structure SpanSide where
  ports : Table SpanPort 8
  remotes : Table (Table Remote 6) 8
  out : Table (Option DownlinkFrame) 8
  deriving DecidableEq, Repr

/-! ### Break-in unit (chapter 7) -/

/-- The carrier set of a request (R135). -/
inductive CarrierSet where
  | all
  | only (set : BitVec 64)
  deriving DecidableEq, Repr

/-- A held announcement request (R135). -/
structure AnnRequest where
  tag : Nat
  message : MessageRef
  priority : Nat
  plays : Nat
  gap : Nat
  zones : GroupSet
  carriers : CarrierSet
  playsDone : Nat
  deriving DecidableEq, Repr

/-- R140. -/
inductive PlayerState where
  | idle
  | fadeIn
  | playing
  | gap
  | fadeOut
  deriving DecidableEq, Repr

/-- The intent of a fade-out (R139). -/
inductive Intent where
  | finish (outcome : AnnOutcome)
  | requeue
  deriving DecidableEq, Repr

/-- A player record (R139), with the number of lanes it covered in the last slot's work (R159). -/
structure Player where
  state : PlayerState
  request : Option AnnRequest
  intent : Option Intent
  fade : Nat
  phase : BitVec 16
  progress : Nat
  gapLeft : Nat
  liveMiss : Nat
  covered : Nat
  deriving DecidableEq, Repr

/-- The four player parameters (R139, R155). -/
structure VoxParams where
  deviation : Nat
  amplitude : Nat
  fadeStep : Nat
  liveGain : Nat
  deriving DecidableEq, Repr

/-- The break-in unit. -/
structure BreakIn where
  queue : List AnnRequest
  bp0 : Player
  bp1 : Player
  params : VoxParams
  lastWork : Option FrameNo
  deriving DecidableEq, Repr

/-! ### Announcement store (chapter 8) -/

/-- R161. -/
inductive PageState where
  | erased
  | programming
  | programmed
  | failed
  | erasing
  deriving DecidableEq, Repr

/-- R164. -/
inductive GuardState where
  | opened
  | eraseBarred
  | writeBarred
  | barred
  deriving DecidableEq, Repr

/-- 512 samples as bytes. -/
abbrev PageContent := Table Byte 512

/-- A store block record with the states of its 64 pages (R161, R164). -/
structure StoreBlock where
  guard : GuardState
  writePointer : Nat
  eraseCount : Nat
  pages : Table PageState 64
  deriving DecidableEq, Repr

/-- The contents of the pages: (address, byte) pairs, addresses strictly rising, none with the byte an unlisted address
reads as (entry 8). -/
abbrev Memory := List (Nat × Byte)

/-- A page waiting or being programmed, or loaded (R165, R167). -/
structure PageLoad where
  page : PageId
  content : PageContent
  deriving DecidableEq, Repr

/-- The write unit (R167). -/
inductive WriteUnit where
  | idle
  | programming (load : PageLoad)
  | erasing (block : BlockId)
  deriving DecidableEq, Repr

/-- An entry of the result history (R170). -/
inductive HistoryResult where
  | program (page : PageId) (result : StoreResult)
  | erase (block : BlockId) (result : StoreResult)
  deriving DecidableEq, Repr

/-- A READY message (R175). -/
structure Message where
  first : Nat
  count : Nat
  gain : Nat
  deriving DecidableEq, Repr

/-! ### Incident controller (chapter 9) -/

/-- A profile row (R181). -/
structure ProfileRow where
  announceMask : Nat
  talkAuto : Bool
  broadcastPreempt : Bool
  shedRank : Nat
  protectBreakIn : Bool
  deriving DecidableEq, Repr

/-- The incident controller (R181, R189). -/
structure Incident where
  asserted : Bool
  run : Nat
  latched : Level
  commanded : Level
  lineLevel : Level
  profile : Table ProfileRow 4
  sampleHfn : Option FrameNo
  deriving DecidableEq, Repr

/-! ### Settings area and store -/

/-- The settings snapshot (R177). -/
structure Snapshot where
  carriers : Table Carrier 64
  groups : Table GroupConfig 8
  profile : Table ProfileRow 4
  lineLevel : Level
  params : VoxParams
  holdLimit : Nat
  trim : Int
  deriving DecidableEq, Repr

/-- The announcement store. The settings area is invalid when `settings` is none; a save runs while `saving` holds its
snapshot (R177). -/
structure Store where
  blocks : Table StoreBlock 32
  memory : Memory
  buffer : Option PageLoad
  unit : WriteUnit
  holder : Option PageLoad
  last : Option HistoryResult
  previous : Option HistoryResult
  messages : Table (Option Message) 48
  settings : Option Snapshot
  saving : Option Snapshot
  deriving DecidableEq, Repr

/-! ### Management agent (chapter 10) -/

/-- The form of a RESTART (R203). -/
inductive RestartForm where
  | keep
  | reload
  deriving DecidableEq, Repr

/-- The management agent. A response stands for a port from the execution of its request to the next slot event (R194). -/
structure Agent where
  queue : List Entry
  lost : Bool
  respA : Option Response
  respB : Option Response
  causes : CauseRecord
  restart : Option RestartForm
  deriving DecidableEq, Repr

/-- The reset input and the power-on hold (R204, R212). -/
structure Pins where
  resetInput : Bool
  powerHold : Bool
  deriving DecidableEq, Repr

end Sys2Proof.Machine
end

