-- ==== Sys2Proof/Machine/Defaults.lean ====
section
/-! DEFINITION. The values of every block right after a reset that loads no settings, and of the store as delivered. -/
namespace Sys2Proof.Machine

/-- The fields of a FREE record (R8). -/
def CarrierFields.default : CarrierFields where
  kind := .mobile
  rfCode := 0
  dlSource := none
  ulDest := none
  dlGain := 4096
  ulGain := 4096
  sqOpen := 0
  sqClose := 0
  hang := 0
  rank := 0
  talkMode := .off
  talkGain := 4096
  eligible := false
  startActive := false

/-- A FREE record: the defaults of R8 and no placement record. -/
def Carrier.default : Carrier where
  state := .free
  fields := .default
  placements := .fill none

/-- The defaults of Table 2-1. -/
def GroupConfig.default : GroupConfig where
  form := .unused
  remotes := 1
  ceiling := 2 ^ 36 - 1
  floor := 1024
  guard := 16
  missLimit := 64

/-- A FREE lane (R28, R46). -/
def Lane.default : Lane where
  state := .free
  owner := none
  guardCount := 0
  player := none

/-- A group of configuration `c` with every lane FREE and nothing waiting (R46). -/
def Group.empty (c : GroupConfig) : Group where
  config := c
  lanes := .fill .default
  waiting := []

/-- R68. -/
def Limiter.default : Limiter where
  factor := 4096
  envelope := 0
  episode := .quiet
  run := 0
  protectedOver := false
  last := none

/-- R95. -/
def SpanPort.default : SpanPort where
  link := .down
  goodRun := 0
  badRun := 0
  arrived := false
  quiet := 0
  goodFrames := 0
  frameFaults := 0
  missedSlots := 0
  sectionFaults := 0
  unknownSections := 0

/-- A context in `state` with `reason` and zero values (R25, R95). R25 gives a context made by a GRPSET its state, reason and
counters alone; that its expected count and echo, and every value of one made IDLE, are 0 is the model's (entry 29). -/
def Context.fresh (state : ContextState) (reason : Option WaitReason) : Context where
  state := state
  reason := reason
  expCount := 0
  expEcho := 0
  missRun := 0
  accepted := 0
  orderFaults := 0
  late := 0
  unstarted := 0

/-- The context of a remote that does not use it: IDLE (R25). -/
def Context.idle : Context := .fresh .idle none

/-- The context of a configured remote just set up: WAITING(NEW) (R25). -/
def Context.new : Context := .fresh .waiting (some .new)

/-- Whether position index `k` is configured in a group of configuration `c` (R74). -/
def GroupConfig.configured (c : GroupConfig) (k : Pos) : Bool := c.form ≠ .unused && k.val < c.remotes

/-- The remote at position index `k` of a group of configuration `c`, set up anew (R25, R95). -/
def Remote.setUp (c : GroupConfig) (k : Pos) : Remote where
  feed := .a
  inService := false
  headroom := none
  radiator := none
  ctxA := if c.configured k then .new else .idle
  ctxB := if c.configured k && c.form == .ring then .new else .idle

/-- The remotes of a group of configuration `c`, set up anew (R25). -/
def setUpRemotes (c : GroupConfig) : Table Remote 6 := .make (Remote.setUp c)

/-- R133. -/
def TrunkPort.default : TrunkPort where
  fifo := []
  link := .down
  goodRun := 0
  badRun := 0
  role := .none
  lastTfn := none
  goodFrames := 0
  checkFaults := 0
  misses := 0
  slips := 0
  tfnGaps := 0

/-- R133; no port is settled ACTIVE and no frame is sent before the first slot event. -/
def TrunkSide.default : TrunkSide where
  a := .default
  b := .default
  settled := none
  outA := none
  outB := none

/-- R134 with the default holdover limit and trim. -/
def Pacer.default : Pacer where
  hfn := none
  ref := .freeRun
  holdCount := 0
  holdLimit := 4800000
  trim := 0
  heldRate := 0
  rateDraws := 0

/-- A CLOSED gate (R100). -/
def Gate.default : Gate where
  state := .closed
  hang := 0

/-- The six gates of a lane, all CLOSED (R103). -/
def closedGates : Table Gate 6 := .fill .default

/-- A block of 24 samples of (0, 0). -/
def zeroBlock : LaneBlock := .fill ⟨0, 0⟩

/-- R114; that no slot has been closed is held as an absent HFN (entry 13). -/
def Combiner.default : Combiner where
  window := []
  gates := .fill (.fill closedGates)
  history := .fill []
  lastClose := .fill none
  lastClosed := none
  uplink := .fill zeroBlock

/-- R160. -/
def Player.default : Player where
  state := .idle
  request := none
  intent := none
  fade := 0
  phase := 0
  progress := 0
  gapLeft := 0
  liveMiss := 0
  covered := 0

/-- The defaults of R160. -/
def VoxParams.default : VoxParams where
  deviation := 12
  amplitude := 2048
  fadeStep := 32
  liveGain := 4096

/-- R160, with the given player parameters. -/
def BreakIn.empty (p : VoxParams) : BreakIn where
  queue := []
  bp0 := .default
  bp1 := .default
  params := p
  lastWork := none

/-- A store block as delivered (R161). -/
def StoreBlock.default : StoreBlock where
  guard := .opened
  writePointer := 0
  eraseCount := 0
  pages := .fill .erased

/-- The store as delivered (R161), with nothing in flight. -/
def Store.default : Store where
  blocks := .fill .default
  memory := []
  buffer := none
  unit := .idle
  holder := none
  last := none
  previous := none
  messages := .fill none
  settings := none
  saving := none

/-- The default rows of Table 9-2. -/
def defaultProfile : Table ProfileRow 4 := .make fun
  | 0 => ⟨0, false, false, 16, false⟩
  | 1 => ⟨4, false, false, 16, false⟩
  | 2 => ⟨8, true, false, 12, true⟩
  | 3 => ⟨12, true, true, 8, true⟩

/-- R190, with the given line level and profile table. -/
def Incident.fresh (lineLevel : Level) (profile : Table ProfileRow 4) : Incident where
  asserted := false
  run := 0
  latched := 0
  commanded := 0
  lineLevel := lineLevel
  profile := profile
  sampleHfn := none

/-- The cleared reset-cause record (R202). -/
def CauseRecord.cleared : CauseRecord where
  powerOn := false
  line := false
  restart := false
  last := .none
  count := 0

/-- The record after a power-on (R202). -/
def CauseRecord.poweredOn : CauseRecord := { CauseRecord.cleared with powerOn := true, last := .powerOn, count := 1 }

/-- The agent's own state at every reset (R204). -/
def Agent.fresh (causes : CauseRecord) : Agent where
  queue := []
  lost := false
  respA := none
  respB := none
  causes := causes
  restart := none

end Sys2Proof.Machine
end

