-- ==== Sys2Proof/Machine/State.lean ====
section
/-! DEFINITION. The state of the hub: the eleven blocks, the reset pins, and the queue of waiting commands. -/
namespace Sys2Proof.Machine

/-- Everything the hub holds. Plain data. -/
structure State where
  /-- Frame Pacer and Reference Supervisor (chapter 6). -/
  fps : Pacer
  /-- Trunk Interface (chapter 6). -/
  tif : TrunkSide
  /-- Carrier Table (chapter 1). -/
  ctb : Table Carrier 64
  /-- Lane Allocator (chapter 2). -/
  lal : Table Group 8
  /-- Downlink Mixer (chapter 3). -/
  dmx : Table Limiter 8
  /-- Span Interface (chapter 4). -/
  sif : SpanSide
  /-- Uplink Combiner (chapter 5). -/
  ucb : Combiner
  /-- Break-in Unit (chapter 7). -/
  bku : BreakIn
  /-- Announcement Store (chapter 8). -/
  ast : Store
  /-- Incident Controller (chapter 9). -/
  ict : Incident
  /-- Management Agent (chapter 10). -/
  mga : Agent
  /-- The reset input and the power-on hold (R204, R212). -/
  pins : Pins
  /-- The commands that wait, first in, first out. -/
  pending : List Instr
  deriving DecidableEq, Repr

/-- Why the hub stops with a fault: the spec describes no condition that stops it, so there is none. -/
inductive Fault where
  deriving DecidableEq, Repr

/-- Why a command is refused by the model. -/
inductive Refusal where
  /-- Raised by an arm of `exec` whose command has no meaning yet; safe. No arm raises it now. -/
  | notModelled (mnemonic : String)
  deriving DecidableEq, Repr

/-- The hub right after reset: as delivered (R161), powered on, out of reset and started up without settings (R205),
before the slot event of HFN 0. The one notice is START (entry 5). -/
def State.reset : State where
  fps := .default
  tif := .default
  ctb := .fill .default
  lal := .fill (.empty .default)
  dmx := .fill .default
  sif := { ports := .fill .default, remotes := .fill (setUpRemotes .default), out := .fill none }
  ucb := .default
  bku := .empty .default
  ast := .default
  ict := .fresh 2 defaultProfile
  mga := { Agent.fresh .poweredOn with queue := [⟨.start .poweredOn .absent 0 0, 1⟩] }
  pins := ⟨false, false⟩
  pending := []

end Sys2Proof.Machine
end

