-- ==== Sys2Proof/Machine/Arith.lean ====
section
/-! DEFINITION. The arithmetic of section 5 of 00_scope.md: nearest rounding, gain codes, saturation, power codes; counters that hold. -/
namespace Sys2Proof.Machine

/-- The nearest rounding of `v / d`: halves away from zero (R3). -/
def nearest (v : Int) (d : Nat) : Int :=
  if 0 ≤ v then (((v.toNat + d / 2) / d : Nat) : Int) else -((((-v).toNat + d / 2) / d : Nat) : Int)

/-- A gain code applied to a value (R2). -/
def applyGain (v : Int) (g : Nat) : Int := nearest (v * g) 4096

/-- Saturation clamps to -32768..32767 (R1). -/
def saturate (v : Int) : Int := max (-32768) (min v 32767)

/-- Whether saturation changes `v`. -/
def clips (v : Int) : Bool := saturate v != v

/-- The sample of two components that lie in the 16-bit range. -/
def Sample.ofInts (i q : Int) : Sample := ⟨BitVec.ofInt 16 i, BitVec.ofInt 16 q⟩

/-- I² + Q² of a sample. -/
def Sample.energy (x : Sample) : Nat := x.i.toInt.natAbs ^ 2 + x.q.toInt.natAbs ^ 2

/-- The sum of `f` over the 24 samples of a block. -/
def sumSamples (b : LaneBlock) (f : Sample → Nat) : Nat := (b.rows.toList.map f).sum

/-- The power code of a lane block (R4). -/
def power (b : LaneBlock) : Nat := sumSamples b Sample.energy / 24

/-- The largest sum of power codes the hub holds (R4). -/
def maxPower : Nat := 2 ^ 36 - 1

/-- A sum of power codes, held at 2^36 - 1 (R60). -/
def holdPower (p : Nat) : Nat := min p maxPower

/-- A block of components that saturation brings into range, with the number of components it changed (R57, R107). -/
def saturateBlock (f : Fin 24 → Int × Int) : LaneBlock × Nat :=
  (.make fun k => Sample.ofInts (saturate (f k).1) (saturate (f k).2),
   ((List.finRange 24).map fun k => (if clips (f k).1 then 1 else 0) + (if clips (f k).2 then 1 else 0)).sum)

/-- A 32-bit event counter, held at 4,294,967,295 (R69, R74, R115). -/
def bump (n : Nat) : Nat := min (n + 1) 4294967295

/-- The members of a set of groups, ascending. -/
def groupsOf (p : GroupId → Bool) : List GroupId := (List.finRange 8).filter p

/-- The number `n` as an index below `k`, if it is one. -/
def index (k n : Nat) : Option (Fin k) := if h : n < k then some ⟨n, h⟩ else none

end Sys2Proof.Machine
end

