-- ==== Sys2Proof/Machine/Lines.lean ====
section
/-! DEFINITION. Bytes on the line (R207, R208): big-endian fields, bit fields, lane blocks, and the two check values. -/
namespace Sys2Proof.Machine

/-- `n` in `k` bytes, most significant byte first (R207). -/
def be : Nat → Nat → List Byte
  | 0, _ => []
  | k + 1, n => BitVec.ofNat 8 (n / 256 ^ k) :: be k n

/-- The number in a string of bytes, most significant first. -/
def number (bs : List Byte) : Nat := bs.foldl (fun acc b => acc * 256 + b.toNat) 0

/-- The `k` bytes at offset `off`. -/
def bytesAt (bs : List Byte) (off k : Nat) : List Byte := (bs.drop off).take k

/-- The number in the `k` bytes at offset `off`. -/
def field (bs : List Byte) (off k : Nat) : Nat := number (bytesAt bs off k)

/-- One bit through a check register: shifted out, compared, combined with the generator (R208). -/
def checkBit {w : Nat} (gen reg : BitVec w) (bit : Bool) : BitVec w :=
  if reg.msb != bit then (reg <<< 1) ^^^ gen else reg <<< 1

/-- One byte through a check register, most significant bit first. -/
def checkByte {w : Nat} (gen reg : BitVec w) (b : Byte) : BitVec w :=
  [7, 6, 5, 4, 3, 2, 1, 0].foldl (fun r k => checkBit gen r (b.getLsbD k)) reg

/-- The CRC-32 of a string of bytes (R208). -/
def crc32 (bs : List Byte) : BitVec 32 := ~~~ bs.foldl (checkByte 0x04C11DB7#32) (BitVec.allOnes 32)

/-- The CRC-16 of a string of bytes (R208). -/
def crc16 (bs : List Byte) : BitVec 16 := bs.foldl (checkByte 0x1021#16) (BitVec.allOnes 16)

/-- A lane block in 96 bytes: sample by sample, I then Q, two bytes each (R207). -/
def blockBytes (b : LaneBlock) : List Byte := b.rows.toList.flatMap fun x => be 2 x.i.toNat ++ be 2 x.q.toNat

/-- The lane block that starts at offset `off` (R207). -/
def blockAt (bs : List Byte) (off : Nat) : LaneBlock :=
  .make fun k => ⟨BitVec.ofNat 16 (field bs (off + 4 * k.val) 2), BitVec.ofNat 16 (field bs (off + 4 * k.val + 2) 2)⟩

/-- A frame followed by its frame check (R208). -/
def withFrameCheck (bs : List Byte) : List Byte := bs ++ be 4 (crc32 bs).toNat

/-- A cell, section or notice field followed by its CRC-16 (R208). -/
def withCellCheck (bs : List Byte) : List Byte := bs ++ be 2 (crc16 bs).toNat

/-- Whether the last four bytes of a frame of `len` bytes hold the CRC-32 of those before (R208). -/
def frameCheckPasses (len : Nat) (bs : List Byte) : Bool :=
  bs.length == len && field bs (len - 4) 4 == (crc32 (bs.take (len - 4))).toNat

/-- A trunk frame received by the hub is good (R208, Table 11-1). -/
def trunkFrameGood (bs : List Byte) : Bool := frameCheckPasses 4664 bs

/-- A span uplink frame is good: at most six sections, the length they give, and the check (R208, Table 11-3). -/
def spanFrameGood (bs : List Byte) : Bool :=
  let s := field bs 0 1
  s ≤ 6 && frameCheckPasses (6 + 3078 * s) bs

/-- TFN of a trunk frame (Table 11-1). -/
def frameTfn (bs : List Byte) : FrameNo := BitVec.ofNat 16 (field bs 0 2)
/-- The speech word of a trunk frame (Table 11-1). -/
def frameSpeech (bs : List Byte) : BitVec 16 := BitVec.ofNat 16 (field bs 2 2)
/-- The control cell of a trunk frame (Table 11-1). -/
def frameCell (bs : List Byte) : List Byte := bytesAt bs 4 48
/-- The block of trunk lane `t` (Table 11-1). -/
def frameLane (bs : List Byte) (t : TrunkLane) : LaneBlock := blockAt bs (52 + 96 * t.val)

/-- The sections of a good span uplink frame, in the order in which they stand (Table 11-3). -/
def frameSections (bs : List Byte) : List (List Byte) :=
  (List.range (field bs 0 1)).map fun k => bytesAt bs (2 + 3078 * k) 3078

/-- A section's own check (R208): the CRC-16 of its 3076 bytes of header and lane blocks. -/
def sectionCheckPasses (bs : List Byte) : Bool := field bs 3076 2 == (crc16 (bs.take 3076)).toNat

/-- The header of a section (Table 11-3). -/
structure SectionHeader where
  echo : FrameNo
  count : BitVec 8
  position : BitVec 3
  start : Bool
  headroom : BitVec 2
  radiator : BitVec 2
  deriving DecidableEq, Repr

/-- The header of a section, read from its bytes (Table 11-3). -/
def sectionHeader (bs : List Byte) : SectionHeader :=
  let b := BitVec.ofNat 8 (field bs 3 1)
  { echo := BitVec.ofNat 16 (field bs 0 2)
    count := BitVec.ofNat 8 (field bs 2 1)
    position := b.extractLsb' 5 3
    start := b.getLsbD 4
    headroom := b.extractLsb' 2 2
    radiator := b.extractLsb' 0 2 }

/-- The 32 lane blocks of a section (Table 11-3). -/
def sectionBlocks (bs : List Byte) : Table LaneBlock 32 := .make fun l => blockAt bs (4 + 96 * l.val)

/-- Bit fields packed from the most significant bit of the first byte on, into `k` bytes, the remaining bits 0 (R211). -/
def packBits (k : Nat) (fs : List (Nat × Nat)) : List Byte :=
  let width := (fs.map Prod.fst).sum
  let value := fs.foldl (fun acc f => acc * 2 ^ f.1 + f.2 % 2 ^ f.1) 0
  be k (value * 2 ^ (8 * k - width))

end Sys2Proof.Machine
end

