-- ==== Sys2Proof/Machine/Notices.lean ====
section
/-! DEFINITION. Notices: their codes, subjects and details on the line (R200, R211), and the queue they wait in (R197, R198). -/
namespace Sys2Proof.Machine

def TrunkId.code : TrunkId → Nat
  | .a => 0
  | .b => 1
def Side.code : Side → Nat
  | .a => 0
  | .b => 1
def PlayerId.code : PlayerId → Nat
  | .bp0 => 0
  | .bp1 => 1
def StoreResult.code : StoreResult → Nat
  | .pass => 0
  | .fail => 1
def RefState.code : RefState → Nat
  | .locked => 0
  | .holdover => 1
  | .freeRun => 2
def TrunkLink.code : TrunkLink → Nat
  | .down => 0
  | .acquiring => 1
  | .up => 2
def SpanLink.code : SpanLink → Nat
  | .down => 0
  | .aligning => 1
  | .up => 2
def SwitchCause.code : SwitchCause → Nat
  | .loss => 0
  | .select => 1
def ContextState.code : ContextState → Nat
  | .idle => 0
  | .waiting => 1
  | .tracking => 2
def WaitReason.code : WaitReason → Nat
  | .new => 0
  | .order => 1
  | .silent => 2
def Radiator.code : Radiator → Nat
  | .ok => 0
  | .feederFault => 1
  | .paOff => 2
def PlacementOutcome.code : PlacementOutcome → Nat
  | .granted => 0
  | .preempted => 1
  | .shed => 2
def AnnOutcome.code : AnnOutcome → Nat
  | .completed => 0
  | .cancelled => 1
  | .sourceLost => 2
def LastCause.code : LastCause → Nat
  | .powerOn => 0
  | .line => 1
  | .restartKeep => 2
  | .restartReload => 3
  | .none => 4
def SettingsOutcome.code : SettingsOutcome → Nat
  | .loaded => 0
  | .absent => 1
  | .kept => 2
def IncidentCause.code : IncidentCause → Nat
  | .line => 0
  | .command => 1
  | .profile => 2
/-- A message is 0..47, and 255 means LIVE (Table 11-5). -/
def MessageRef.code : MessageRef → Nat
  | .stored m => m.val
  | .live => 255
/-- Yes is 1 and no is 0 (chapter 11). -/
def yes (b : Bool) : Nat := if b then 1 else 0

/-- The code of a notice's kind (Table 11-8). -/
def Notice.kindCode : Notice → Nat
  | .start .. => 1
  | .trunkState .. => 2
  | .trunkSwitch .. => 3
  | .referenceState .. => 4
  | .spanState .. => 5
  | .remoteState .. => 6
  | .remoteResync .. => 7
  | .remoteSide .. => 8
  | .remoteReport .. => 9
  | .sectionFault .. => 10
  | .placement .. => 11
  | .overBudget .. => 12
  | .protectedOver .. => 13
  | .clipLane .. => 14
  | .clipTrunk .. => 14
  | .announceStart .. => 15
  | .announceRequeued .. => 16
  | .announceEnd .. => 17
  | .storeProgramDone .. => 18
  | .storeEraseDone .. => 18
  | .settingsDone .. => 19
  | .incident .. => 20

/-- The subject of a notice as a number 0..1023 (Table 11-8). -/
def Notice.subject : Notice → Nat
  | .start .. => 0
  | .trunkState p _ => TrunkId.code p
  | .trunkSwitch .. => 0
  | .referenceState _ => 0
  | .spanState p _ => p.val
  | .remoteState g k sd _ _ => g.val * 16 + (k.val + 1) * 2 + Side.code sd
  | .remoteResync g k sd _ _ _ _ => g.val * 16 + (k.val + 1) * 2 + Side.code sd
  | .remoteSide g k _ => g.val * 8 + (k.val + 1)
  | .remoteReport g k _ _ => g.val * 8 + (k.val + 1)
  | .sectionFault p _ _ _ => p.val
  | .placement c g _ _ => c.val * 8 + g.val
  | .overBudget g _ _ _ => g.val
  | .protectedOver g _ _ => g.val
  | .clipLane g l _ _ => g.val * 32 + l.val
  | .clipTrunk t _ _ => 512 + t.val
  | .announceStart t _ _ _ => t
  | .announceRequeued t _ _ => t
  | .announceEnd t _ _ => t
  | .storeProgramDone b _ _ => b.val
  | .storeEraseDone b _ => b.val
  | .settingsDone _ => 0
  | .incident .. => 0

/-- The two reason bits of a REMOTE_STATE notice; no value is stated for an absent reason (entry 12). -/
def reasonBits : Option WaitReason → Nat
  | some r => r.code
  | none => Config.absentReasonBits.toNat

/-- The five lane bits of a PLACEMENT notice; no value is stated for an absent lane (entry 12). -/
def laneBits : Option LaneId → Nat
  | some l => l.val
  | none => Config.absentLaneBits.toNat

/-- The detail of a notice as bit fields, (width, value) each (Table 11-8). Power values are in units of 128 (R211). That the
three flags of START, which R202 lists as set and clear, read 1 where set is the model's (entry 13). -/
def Notice.detail : Notice → List (Nat × Nat)
  | .start c o a r => [(3, c.last.code), (1, yes c.powerOn), (1, yes c.line), (1, yes c.restart), (8, c.count), (2, o.code), (7, a), (7, r)]
  | .trunkState _ l => [(2, l.code)]
  | .trunkSwitch p c => [(1, TrunkId.code p), (1, c.code)]
  | .referenceState r => [(2, r.code)]
  | .spanState _ l => [(2, l.code)]
  | .remoteState _ _ _ st r => [(2, st.code), (2, reasonBits r)]
  | .remoteResync _ _ _ ec ee c e => [(8, ec.toNat), (16, ee.toNat), (8, c.toNat), (16, e.toNat)]
  | .remoteSide _ _ sd => [(1, Side.code sd)]
  | .remoteReport _ _ h r => [(2, h.toNat), (2, r.code)]
  | .sectionFault _ p e r => [(3, p.toNat), (16, e.toNat), (2, r.toNat)]
  | .placement _ _ o l => [(2, o.code), (1, yes l.isSome), (5, laneBits l)]
  | .overBudget _ e c p => [(29, e / 128), (29, c / 128), (29, p / 128)]
  | .protectedOver _ p c => [(29, p / 128), (29, c / 128)]
  | .clipLane _ _ c n => [(6, c.val), (6, n)]
  | .clipTrunk _ c n => [(6, c.val), (6, n)]
  | .announceStart _ p m n => [(1, PlayerId.code p), (8, m.code), (16, n)]
  | .announceRequeued _ p n => [(1, PlayerId.code p), (16, n)]
  | .announceEnd _ o n => [(2, o.code), (16, n)]
  | .storeProgramDone _ p r => [(1, 0), (11, p.val), (1, StoreResult.code r)]
  | .storeEraseDone _ r => [(1, 1), (11, 0), (1, StoreResult.code r)]
  | .settingsDone r => [(1, StoreResult.code r)]
  | .incident e l c ll k => [(2, e.val), (2, l.val), (2, c.val), (2, ll.val), (2, k.code)]

/-- Whether a notice has the key of an entry: the same kind and the same subject (R197, R200). -/
def Entry.sameKey (e : Entry) (n : Notice) : Bool :=
  e.latest.kindCode == n.kindCode && e.latest.subject == n.subject

/-- A block raises a notice: it coalesces, joins the tail, or is dropped with the lost flag set (R197). -/
def Agent.raise (m : Agent) (n : Notice) : Agent :=
  if m.queue.any (·.sameKey n) then
    { m with queue := m.queue.map fun e => if e.sameKey n then ⟨n, min 255 (e.count + 1)⟩ else e }
  else if m.queue.length < 32 then { m with queue := m.queue ++ [⟨n, 1⟩] }
  else { m with lost := true }

/-- Several notices, in the order in which they are raised. -/
def Agent.raiseAll (m : Agent) (ns : List Notice) : Agent := ns.foldl Agent.raise m

/-- The notice field: kind, lost flag, subject, count, detail and check (Table 11-7, R211). -/
def noticeField : Option SentNotice → List Byte
  | none => withCellCheck (be 14 0)
  | some n =>
    let s := n.entry.latest.subject
    withCellCheck (be 1 (n.entry.latest.kindCode * 8 + yes n.lost * 4 + s / 256) ++ be 1 s ++ be 1 n.entry.count ++
      packBits 11 n.entry.latest.detail)

end Sys2Proof.Machine
end

