-- ==== Sys2Proof/Machine/Flags.lean ====
section
/-! DEFINITION. What the hub shows of itself: levels, roles, the status summary (R201), and the frames and cells it sends (chapter 11). -/
namespace Sys2Proof.Machine

/-- The effective incident level: the greater of latched and commanded (R181). -/
def Incident.effective (i : Incident) : Level := max i.latched i.commanded

/-- The current profile row (R181). -/
def Incident.row (i : Incident) : ProfileRow := i.profile.get i.effective

/-- The record of a trunk port. -/
def TrunkSide.port (t : TrunkSide) : TrunkId → TrunkPort
  | .a => t.a
  | .b => t.b

/-- The uplink trunk frame last sent on a port. -/
def TrunkSide.out (t : TrunkSide) : TrunkId → Option UplinkFrame
  | .a => t.outA
  | .b => t.outB

/-- The ACTIVE trunk port, if one is (R120). -/
def TrunkSide.active (t : TrunkSide) : Option TrunkId :=
  if t.a.role = .active then some .a else if t.b.role = .active then some .b else none

/-- The response that stands for a port (R194). -/
def Agent.response (m : Agent) : TrunkId → Option Response
  | .a => m.respA
  | .b => m.respB

/-- The hub is held in reset, by the reset input or by the power-on hold (R204, R212). -/
def State.held (s : State) : Bool := s.pins.resetInput || s.pins.powerHold

/-- Island mode: the reference state is not LOCKED (R131). -/
def Pacer.island (p : Pacer) : Bool := p.ref ≠ .locked

/-- HFN of the next slot event: one more than the latest, 0 after a reset (R125). -/
def Pacer.next (p : Pacer) : FrameNo :=
  match p.hfn with
  | none => 0
  | some h => h + 1

/-- The pacer's rate, in steps of 0.01 ppm over nominal: steered while LOCKED, else the held rate corrected by the trim (R126). -/
def Pacer.rate (p : Pacer) : Int := if p.ref = .locked then p.heldRate else p.heldRate + p.trim

/-- The status summary as it stands (R201). -/
def State.summary (s : State) : Summary where
  ref := s.fps.ref
  active := s.tif.active
  level := s.ict.effective
  notices := s.mga.queue.length
  lost := s.mga.lost

/-- The two bytes of a status summary (section 11.1). -/
def Summary.bytes (m : Summary) : List Byte :=
  let port := match m.active with
    | none => 0
    | some .a => 1
    | some .b => 2
  [BitVec.ofNat 8 (m.ref.code * 64 + port * 16 + m.level.val * 4 + yes m.lost), BitVec.ofNat 8 m.notices]

/-- Status codes are numbered 1 to 12 in this order (section 11.4). -/
def Status.code : Status → Nat
  | .ok => 1
  | .accepted => 2
  | .malformed => 3
  | .range => 4
  | .state => 5
  | .inUse => 6
  | .noRoom => 7
  | .barred => 8
  | .busy => 9
  | .order => 10
  | .notActive => 11
  | .notFound => 12

/-- An uplink control cell: a response, or no response (R209, Table 11-4). -/
def controlCell : Option Response → List Byte
  | none => withCellCheck (be 46 0)
  | some r => withCellCheck (be 1 r.kind ++ be 1 r.tag ++ be 1 r.status.code ++ be 1 r.body.length ++
      (r.body ++ List.replicate 42 0).take 42)

/-- The 4680 bytes of an uplink trunk frame (Table 11-1). -/
def UplinkFrame.bytes (f : UplinkFrame) : List Byte :=
  withFrameCheck (be 2 f.hfn.toNat ++ f.summary.bytes ++ controlCell f.control ++ noticeField f.notice ++
    f.lanes.rows.toList.flatMap blockBytes)

/-- The byte of a remote directive (Table 11-2). -/
def Directive.byte (d : Directive) : Byte := BitVec.ofNat 8 (yes d.configured * 4 + Side.code d.serve * 2 + yes d.inService)

/-- The code of a lane mode (Table 11-2). -/
def LaneMode.code : LaneMode → Nat
  | .idle => 0
  | .retuning => 1
  | .live => 2

/-- The 3150 bytes of a span downlink frame (Table 11-2). -/
def DownlinkFrame.bytes (f : DownlinkFrame) : List Byte :=
  withFrameCheck (be 2 f.hfn.toNat ++ be 1 f.timing.code ++ be 1 f.level.val ++ f.directives.rows.toList.map Directive.byte ++
    f.laneMap.rows.toList.flatMap (fun e => be 2 (e.mode.code * 16384 + e.rfCode)) ++ f.blocks.rows.toList.flatMap blockBytes)

end Sys2Proof.Machine
end

