-- ==== Sys2Proof/Machine/Ops.lean ====
section
/-! DEFINITION. The operations every block shares: the store's memory, raising notices, and answering a request (R192 to R195). -/
namespace Sys2Proof.Machine

/-! ### The store's memory (entry 8) -/

/-- What an address that is not listed reads as: -1, the sample of an ERASED page (R163). -/
def unlisted : Byte := 0xFF

/-- The byte at an address. -/
def Memory.read : Memory → Nat → Byte
  | [], _ => unlisted
  | (k, b) :: m, a => if k = a then b else Memory.read m a

/-- The cell `(a, b)` in front of a memory, left out where it says what an unlisted address reads as. -/
def Memory.cell (a : Nat) (b : Byte) (m : Memory) : Memory := if b = unlisted then m else (a, b) :: m

/-- One byte written, in its place. -/
def Memory.write : Memory → Nat → Byte → Memory
  | [], a, b => Memory.cell a b []
  | (k, c) :: m, a, b =>
    if a < k then Memory.cell a b ((k, c) :: m)
    else if a = k then Memory.cell a b m
    else (k, c) :: Memory.write m a b

/-- A run of bytes written from an address on. -/
def Memory.writeRun (m : Memory) (a : Nat) : List Byte → Memory
  | [] => m
  | b :: bs => Memory.writeRun (m.write a b) (a + 1) bs

/-- The bytes from address `lo` to `hi - 1` made unlisted. -/
def Memory.clear (m : Memory) (lo hi : Nat) : Memory := m.filter fun c => c.1 < lo || hi ≤ c.1

/-- The canonical form: addresses strictly rising from `lo` on, no cell saying what an unlisted address reads as. -/
def Memory.wfFrom : Nat → Memory → Bool
  | _, [] => true
  | lo, (k, b) :: m => lo ≤ k && b != unlisted && Memory.wfFrom (k + 1) m

/-- The memory has its canonical form. -/
def Memory.wf (m : Memory) : Bool := Memory.wfFrom 0 m

/-! ### Notices -/

/-- The notices of an event join the queue in the order given (R197). -/
def State.raiseAll (s : State) (ns : List Notice) : State := { s with mga := s.mga.raiseAll ns }

/-- One notice. -/
def State.raise (s : State) (n : Notice) : State := s.raiseAll [n]

/-! ### Answering a request -/

/-- What carrying out a request gives: the state, the status and the body of the response. -/
structure Answer where
  state : State
  status : Status
  body : List Byte
  deriving DecidableEq, Repr

/-- A request answered with a status other than OK or ACCEPTED has changed nothing (R195). -/
def refuse (st : Status) (s : State) : Answer := ⟨s, st, []⟩

/-- Carried out. -/
def okWith (s : State) (body : List Byte) : Answer := ⟨s, .ok, body⟩

/-- Carried out, with an operation begun or held (R195). -/
def begun (s : State) : Answer := ⟨s, .accepted, []⟩

/-- The response stands for the port that carried the request (R194). -/
def Agent.respond (m : Agent) (p : TrunkId) (r : Response) : Agent :=
  match p with
  | .a => { m with respA := some r }
  | .b => { m with respB := some r }

/-- The response stands for the port that carried the request (R194). -/
def State.respond (s : State) (p : TrunkId) (r : Response) : State := { s with mga := s.mga.respond p r }

/-- The kind code of RDREC, the one kind executed from a port that is not ACTIVE (R192). -/
def rdrecCode : Nat := 1

/-- The checks of R192 before the kind's own, and what the checks let through: a tag of 0 is MALFORMED, a kind other than
RDREC from a port that the consumption of the slot in course has not settled ACTIVE is NOT_ACTIVE (R191), whatever a TRKSEL of
the slot has made of the roles since, and any other request is answered as `act` carries it out. -/
def check (p : TrunkId) (tag code : Nat) (act : State → Answer) (s : State) : Answer :=
  if tag = 0 then refuse .malformed s
  else if code ≠ rdrecCode ∧ s.tif.settled ≠ some p then refuse .notActive s
  else act s

/-- One request taken whole: its checks, its effects, and its response on the port that carried it (R193, R194). -/
def serve (p : TrunkId) (tag code : Nat) (act : State → Answer) (s : State) : State :=
  let a := check p tag code act s
  a.state.respond p ⟨tag, code, a.status, a.body⟩

/-- The oldest entry taken for the frame of a slot whose settlement left a port ACTIVE, and the agent after it (R198). -/
def Agent.takeNotice (m : Agent) (settled : Option TrunkId) : Agent × Option SentNotice :=
  match settled, m.queue with
  | some _, e :: rest => ({ m with queue := rest, lost := false }, some ⟨e, m.lost⟩)
  | _, _ => (m, none)

/-- The port settled ACTIVE, where its frame of the slot in course carries no notice yet. -/
def TrunkSide.openField (t : TrunkSide) : Option TrunkId :=
  match t.settled with
  | some p => if (t.out p).any (·.notice.isNone) then some p else none
  | none => none

/-- The frame of the slot in course with the control cell and the status summary as they now stand: the frame is
completed once every request of the slot has been answered (R124, R194, R201). Reference state and ACTIVE port stay as
settled by the consumption of the slot. A notice taken now goes into the field that was open. -/
def UplinkFrame.refresh (s : State) (taken : Option SentNotice) (p : TrunkId) (f : UplinkFrame) : UplinkFrame :=
  { f with
    control := s.mga.response p
    summary := { s.summary with ref := f.summary.ref, active := f.summary.active }
    notice := if s.tif.openField = some p then taken else f.notice }

/-- Both frames of the slot in course, as they now stand: where the ACTIVE port's field carries no notice, the oldest entry is
taken into it, be it one that the request itself has raised (R198, R199). -/
def State.refreshFrames (s : State) : State :=
  let taken := s.mga.takeNotice s.tif.openField
  let t := { s with mga := taken.1 }
  { t with tif := { t.tif with
      outA := t.tif.outA.map (UplinkFrame.refresh t taken.2 .a)
      outB := t.tif.outB.map (UplinkFrame.refresh t taken.2 .b) } }

/-- A request as a command of its own: taken during the slot in course, its response in that slot's frame (entry 4).
While the hub is held in reset it executes nothing (R204). -/
def requestCommand (p : TrunkId) (tag code : Nat) (act : State → Answer) (s : State) : Host.Outcome State Fault Refusal :=
  .next (if s.held then s else (serve p tag code act s).refreshFrames)

/-- An event of the hub's own: it takes place only while the hub is not held in reset (R204). -/
def eventCommand (act : State → State) (s : State) : Host.Outcome State Fault Refusal :=
  .next (if s.held then s else act s)

/-- The list of forced and clamped fields of a response: a count, then the places of the fields among the arguments (R210). -/
def changedFields (fs : List (Nat × Bool)) : List Byte :=
  let places := (fs.filter Prod.snd).map Prod.fst
  be 1 places.length ++ places.flatMap (be 1)

/-- A field that may be absent: one byte of presence, then the field, zero where absent (R210). -/
def optionalField (k : Nat) : Option Nat → List Byte
  | none => be 1 0 ++ be k 0
  | some n => be 1 1 ++ be k n

end Sys2Proof.Machine
end

