-- ==== Sys2Proof/Machine/Lanes.lean ====
section
/-! DEFINITION. The lane allocator at work (chapter 2): waiting lists, the group arbiter with its grant and preempt steps, release, shedding, and activation (R12, R13). -/
namespace Sys2Proof.Machine

/-- What the lane allocator acts on: the carrier table's placement records, lane tables and waiting lists, the squelch
gates, and the notices it raises, in order. -/
structure Alloc where
  ctb : Table Carrier 64
  lal : Table Group 8
  gates : Gates
  out : List Notice
  deriving DecidableEq, Repr

namespace Alloc

/-- One notice more. -/
def say (a : Alloc) (n : Notice) : Alloc := { a with out := a.out ++ [n] }

/-- The state of the placement of carrier `c` in group `g`, if it has one. -/
def placementState (a : Alloc) (c : CarrierId) (g : GroupId) : Option PlacementState :=
  ((a.ctb.get c).placements.get g).bind (·.state)

/-- The placement of `c` in `g`, if there is a record, in state `st`; its trim is kept (R16). -/
def setPlacement (a : Alloc) (c : CarrierId) (g : GroupId) (st : Option PlacementState) : Alloc :=
  { a with ctb := a.ctb.edit c fun r => { r with placements := r.placements.edit g fun p => p.map fun q => { q with state := st } } }

/-- The waiting list of a group. -/
def waiting (a : Alloc) (g : GroupId) : List CarrierId := (a.lal.get g).waiting

/-- The waiting list of a group replaced. -/
def setWaiting (a : Alloc) (g : GroupId) (w : List CarrierId) : Alloc :=
  { a with lal := a.lal.edit g fun x => { x with waiting := w } }

/-- The class of an entry, in list order: RESCUE, BROADCAST, MOBILE (R34). -/
def classOf (a : Alloc) (c : CarrierId) : Nat :=
  match (a.ctb.get c).fields.kind with
  | .rescue => 0
  | .broadcast => 1
  | .mobile => 2

/-- An entry joins at the tail of its class (R34). -/
def joinTail (a : Alloc) (g : GroupId) (c : CarrierId) : Alloc :=
  let w := a.waiting g
  let ahead := fun x => a.classOf x ≤ a.classOf c
  a.setWaiting g (w.takeWhile ahead ++ c :: w.dropWhile ahead)

/-- A victim joins at the head of the MOBILE class (R34). -/
def joinHeadMobile (a : Alloc) (g : GroupId) (c : CarrierId) : Alloc :=
  let w := a.waiting g
  let ahead := fun x => a.classOf x < 2
  a.setWaiting g (w.takeWhile ahead ++ c :: w.dropWhile ahead)

/-- An entry leaves the waiting list; the others keep their order (R34). -/
def leave (a : Alloc) (g : GroupId) (c : CarrierId) : Alloc := a.setWaiting g ((a.waiting g).filter (· != c))

/-- A lane record replaced and its six gates CLOSED, as at every change of owner (R103). -/
def putLane (a : Alloc) (g : GroupId) (l : LaneId) (x : Lane) : Alloc :=
  { a with
    lal := a.lal.edit g fun grp => { grp with lanes := grp.lanes.put l x }
    gates := a.gates.edit g fun t => t.put l closedGates }

/-- The lane record. -/
def lane (a : Alloc) (g : GroupId) (l : LaneId) : Lane := (a.lal.get g).lanes.get l

/-- The lowest-numbered FREE lane (R36). -/
def freeLane (a : Alloc) (g : GroupId) : Option LaneId := (List.finRange 32).find? fun l => (a.lane g l).state = .free

/-- The lane that carrier `c` owns in group `g`; it owns at most one (R28). -/
def laneOf (a : Alloc) (g : GroupId) (c : CarrierId) : Option LaneId :=
  (List.finRange 32).find? fun l => (a.lane g l).owner = some c

/-- Lane `l` passes to carrier `c`: GUARD with the retune guard as stored, the entry leaves the list, its placement is
HELD, and PLACEMENT(GRANTED) is raised (R36, R38). -/
def give (a : Alloc) (g : GroupId) (l : LaneId) (c : CarrierId) : Alloc :=
  ((((a.putLane g l ⟨.guard, some c, (a.lal.get g).config.guard, none⟩).leave g c).setPlacement c g (some .held))).say
    (.placement c g .granted (some l))

/-- The grant step over the entries of the list, head first, while a lane is FREE (R36). -/
def grantStep (g : GroupId) : List CarrierId → Alloc → Alloc
  | [], a => a
  | c :: rest, a =>
    match a.freeLane g with
    | none => a
    | some l => grantStep g rest (a.give g l c)

/-- Whether an entry may preempt: RESCUE always, BROADCAST where the current row sets broadcast-preempt, MOBILE never (R37). -/
def mayPreempt (a : Alloc) (row : ProfileRow) (c : CarrierId) : Bool :=
  match (a.ctb.get c).fields.kind with
  | .rescue => true
  | .broadcast => row.broadcastPreempt
  | .mobile => false

/-- The MOBILE owner of an owned lane, with its rank: a victim (R38). -/
def victimAt (a : Alloc) (g : GroupId) (l : LaneId) : Option (CarrierId × Nat) :=
  match (a.lane g l).state, (a.lane g l).owner with
  | .free, _ => none
  | _, none => none
  | _, some c => if (a.ctb.get c).fields.kind = .mobile then some (c, (a.ctb.get c).fields.rank) else none

/-- The victim lane: the greatest rank, and of equal ranks the highest lane number (R38). -/
def victim (a : Alloc) (g : GroupId) : Option (LaneId × CarrierId) :=
  ((List.finRange 32).foldl (fun best l =>
    match a.victimAt g l, best with
    | none, _ => best
    | some (c, r), none => some (l, c, r)
    | some (c, r), some (_, _, r') => if r' ≤ r then some (l, c, r) else best) none).map fun x => (x.1, x.2.1)

/-- The handover of lane `l` from `v` to `c` (R38). -/
def handOver (a : Alloc) (g : GroupId) (l : LaneId) (v c : CarrierId) : Alloc :=
  ((((a.setPlacement v g (some .waiting)).joinHeadMobile g v).give g l c)).say (.placement v g .preempted (some l))

/-- The preempt step over the list as it stood when the step began (R37). -/
def preemptStep (g : GroupId) (row : ProfileRow) : List CarrierId → Alloc → Alloc
  | [], a => a
  | c :: rest, a =>
    if a.mayPreempt row c then
      match a.victim g with
      | none => a
      | some (l, v) => preemptStep g row rest (a.handOver g l v c)
    else preemptStep g row rest a

/-- One run of the group's arbiter (R35). -/
def arbiter (g : GroupId) (row : ProfileRow) (a : Alloc) : Alloc :=
  let a := grantStep g (a.waiting g) a
  preemptStep g row (a.waiting g) a

/-- A lane is released (R32). -/
def release (a : Alloc) (g : GroupId) (l : LaneId) : Alloc := a.putLane g l .default

/-- The lane that `c` owns in `g`, if any, is released. -/
def releaseOf (a : Alloc) (g : GroupId) (c : CarrierId) : Alloc :=
  match a.laneOf g c with
  | some l => a.release g l
  | none => a

/-- A MOBILE carrier whose rank is at or above the shed rank (R13, R41). -/
def shedable (a : Alloc) (row : ProfileRow) (c : CarrierId) : Bool :=
  (a.ctb.get c).fields.kind = .mobile && row.shedRank ≤ (a.ctb.get c).fields.rank

/-- One carrier in shedding (R41): a HELD or WAITING placement of a shedable carrier becomes SHED. -/
def shedOne (g : GroupId) (row : ProfileRow) (a : Alloc) (c : CarrierId) : Alloc :=
  if a.shedable row c then
    match a.placementState c g with
    | some .held =>
      let l := a.laneOf g c
      ((a.releaseOf g c).setPlacement c g (some .shed)).say (.placement c g .shed l)
    | some .waiting => ((a.leave g c).setPlacement c g (some .shed)).say (.placement c g .shed none)
    | _ => a
  else a

/-- One carrier in unshedding (R42): a SHED placement whose rank is below the shed rank becomes WAITING at the tail of
the MOBILE class. -/
def unshedOne (g : GroupId) (row : ProfileRow) (a : Alloc) (c : CarrierId) : Alloc :=
  if a.placementState c g = some .shed ∧ (a.ctb.get c).fields.rank < row.shedRank then
    (a.setPlacement c g (some .waiting)).joinTail g c
  else a

/-- Shedding, unshedding and one arbiter run of one group (R40). -/
def incidentGroup (row : ProfileRow) (a : Alloc) (g : GroupId) : Alloc :=
  if (a.lal.get g).config.form = .unused then a
  else
    let a := (List.finRange 64).foldl (shedOne g row) a
    let a := (List.finRange 64).foldl (unshedOne g row) a
    arbiter g row a

/-- The lane allocator's part of the INCIDENT event: every served group in ascending number (R40). -/
def incident (row : ProfileRow) (a : Alloc) : Alloc := (List.finRange 8).foldl (incidentGroup row) a

/-- The groups of a carrier's placement set, ascending (R16). -/
def groups (a : Alloc) (c : CarrierId) : List GroupId := groupsOf fun g => ((a.ctb.get c).placements.get g).isSome

/-- One placement entered at activation (R13). -/
def enter (row : ProfileRow) (c : CarrierId) (a : Alloc) (g : GroupId) : Alloc :=
  if a.shedable row c then a.setPlacement c g (some .shed)
  else arbiter g row ((a.setPlacement c g (some .waiting)).joinTail g c)

/-- The carrier ACTIVE and its placements entered, group by group (R13). -/
def activate (row : ProfileRow) (c : CarrierId) (a : Alloc) : Alloc :=
  let a := { a with ctb := a.ctb.edit c fun r => { r with state := .active } }
  (a.groups c).foldl (enter row c) a

/-- The checks of R12 from the second on: none where the carrier may be activated. -/
def activationRefusal (a : Alloc) (c : CarrierId) : Option Status :=
  let r := a.ctb.get c
  if r.state ≠ .defined then some .state
  else if a.groups c = [] then some .range
  else if (a.groups c).any fun g => (a.lal.get g).config.form = .unused then some .state
  else if r.fields.ulDest.isSome && (List.finRange 64).any fun d =>
      d != c && (a.ctb.get d).state = .active && (a.ctb.get d).fields.ulDest = r.fields.ulDest then some .inUse
  else none

/-- Release of one group's placement at CAROFF, and the arbiter run it sets off (R14). -/
def exitGroup (row : ProfileRow) (c : CarrierId) (a : Alloc) (g : GroupId) : Alloc :=
  match a.placementState c g with
  | some .held => arbiter g row ((a.releaseOf g c).setPlacement c g none)
  | some .waiting => arbiter g row ((a.leave g c).setPlacement c g none)
  | _ => a.setPlacement c g none

/-- The placements of an ACTIVE carrier released, group by group, and the carrier DEFINED (R14). -/
def deactivate (row : ProfileRow) (c : CarrierId) (a : Alloc) : Alloc :=
  let a := (a.groups c).foldl (exitGroup row c) a
  { a with ctb := a.ctb.edit c fun r => { r with state := .defined } }

/-- Activations at start-up, in the order given: how many were made and how many a check of R12 refused (R20, R21, R205). -/
def activateAll (row : ProfileRow) : List CarrierId → Alloc × Nat × Nat → Alloc × Nat × Nat
  | [], r => r
  | c :: cs, (a, made, refused) =>
    match a.activationRefusal c with
    | none => activateAll row cs (a.activate row c, made + 1, refused)
    | some _ => activateAll row cs (a, made, refused + 1)

end Alloc

/-- What the lane allocator acts on, in the hub. -/
def State.alloc (s : State) : Alloc := ⟨s.ctb, s.lal, s.ucb.gates, []⟩

/-- The hub after the lane allocator's work, its notices raised in order. -/
def State.withAlloc (s : State) (a : Alloc) : State :=
  { s with ctb := a.ctb, lal := a.lal, ucb := { s.ucb with gates := a.gates }, mga := s.mga.raiseAll a.out }

/-! ### The guard step and the lane map -/

/-- A lane whose guard runs out becomes LIVE with the same owner: the lane guard expiry (R31). -/
def Lane.expire (x : Lane) : Lane := { x with state := .live, guardCount := 0 }

/-- The guard count of this lane runs out at the next slot event (R31). -/
def Lane.expiring (x : Lane) : Bool := x.state = .guard && x.guardCount ≤ 1

/-- The guard step of one lane (R31). -/
def Lane.guardStep (x : Lane) : Lane :=
  match x.state with
  | .guard => if x.guardCount ≤ 1 then x.expire else { x with guardCount := x.guardCount - 1 }
  | _ => x

/-- The guard step in every group (R31). -/
def guardStep (t : Table Group 8) : Table Group 8 :=
  .make fun g => { t.get g with lanes := .make fun l => ((t.get g).lanes.get l).guardStep }

/-- The lane map entry of a lane (R30). -/
def mapEntry (ctb : Table Carrier 64) (x : Lane) : MapEntry :=
  let code := match x.owner with
    | some c => (ctb.get c).fields.rfCode
    | none => 0
  match x.state with
  | .free => ⟨.idle, 0⟩
  | .guard => ⟨.retuning, code⟩
  | .live => ⟨.live, code⟩

/-- LANE_GUARD_EXPIRY: the lane whose count runs out becomes LIVE (R31; entry 1). -/
def laneGuardExpiry (g : GroupId) (l : LaneId) (s : State) : State :=
  if ((s.lal.get g).lanes.get l).expiring then
    { s with lal := s.lal.edit g fun x => { x with lanes := x.lanes.edit l Lane.expire } }
  else s

/-- The meaning of LANE_GUARD_EXPIRY. -/
def execLaneGuardExpiry (g : GroupId) (l : LaneId) (s : State) : Host.Outcome State Fault Refusal :=
  eventCommand (laneGuardExpiry g l) s

end Sys2Proof.Machine
end

