-- ==== Sys2Proof/Machine/Operands.lean ====
section
/-! DEFINITION. The operands of requests: the request cell read as bytes (R191, R209, Tables 11-4 to 11-6), and the codes of the values that arguments name. -/
namespace Sys2Proof.Machine

/-- The kind code of a request (Table 11-5). -/
def requestCode : Request → Nat
  | .rdrec .. => 1
  | .carset .. => 2
  | .caron .. => 3
  | .caroff .. => 4
  | .carclr .. => 5
  | .trim .. => 6
  | .grpset .. => 7
  | .sprst .. => 8
  | .incset .. => 9
  | .incclr => 10
  | .profset .. => 11
  | .annc .. => 12
  | .ancan .. => 13
  | .voxset .. => 14
  | .pgopen .. => 15
  | .pgdata .. => 16
  | .pgcommit => 17
  | .blkerase .. => 18
  | .blkguard .. => 19
  | .msgdef .. => 20
  | .msgclr .. => 21
  | .trksel .. => 22
  | .timset .. => 23
  | .save => 24
  | .restart .. => 25
  | .causeclr => 26

/-- The selector of an RDREC and the length of its argument bytes (Table 11-6). -/
def parseSelector (a : List Byte) : Option (Selector × Nat) :=
  let f := fun (o k : Nat) => field a (2 + o) k
  match field a 0 1 with
  | 1 => some (.carrier (f 0 1), 1)
  | 2 => some (.placement (f 0 1) (f 1 1), 2)
  | 3 => some (.group (f 0 1), 1)
  | 4 => some (.lane (f 0 1) (f 1 1), 2)
  | 5 => some (.remote (f 0 1) (f 1 1), 2)
  | 6 => some (.context (f 0 1) (f 1 1) (f 2 1), 3)
  | 7 => some (.spanPort (f 0 1), 1)
  | 8 => some (.trunkPort (f 0 1), 1)
  | 9 => some (.reference, 0)
  | 10 => some (.player (f 0 1), 1)
  | 11 => some (.queuePosition (f 0 1), 1)
  | 12 => some (.storeBlock (f 0 1), 1)
  | 13 => some (.storePage (f 0 2) (f 2 2) (f 4 1), 5)
  | 14 => some (.storeStatus, 0)
  | 15 => some (.message (f 0 1), 1)
  | 16 => some (.settingsState, 0)
  | 17 => some (.profileRow (f 0 1), 1)
  | 18 => some (.incidentState, 0)
  | 19 => some (.resetCauses, 0)
  | _ => none

/-- A byte as a signed number (R207). -/
def signedByte (n : Nat) : Int := (BitVec.ofNat 8 n).toInt

/-- A request read from its kind code, its argument length and the bytes from byte 3 on; none where the form is
MALFORMED: no such kind, or a length that differs from the kind's (R192, R209). -/
def parseRequest (code len : Nat) (a : List Byte) : Option Request :=
  let f := field a
  let fixed := fun (n : Nat) (r : Request) => if len = n then some r else none
  match code with
  | 1 => match parseSelector a with
    | some (sel, n) => fixed (2 + n) (.rdrec sel (f 1 1))
    | none => none
  | 2 => fixed 27 (.carset {
      carrier := f 0 1, kind := f 1 1, rfCode := f 2 2, dlSource := f 4 1, ulDest := f 5 1, groups := f 6 1, dlGain := f 7 2,
      ulGain := f 9 2, sqOpen := f 11 4, sqClose := f 15 4, hang := f 19 2, rank := f 21 1, talkMode := f 22 1,
      talkGain := f 23 2, eligible := f 25 1, startActive := f 26 1 })
  | 3 => fixed 1 (.caron (f 0 1))
  | 4 => fixed 1 (.caroff (f 0 1))
  | 5 => fixed 1 (.carclr (f 0 1))
  | 6 => fixed 4 (.trim (f 0 1) (f 1 1) (f 2 2))
  | 7 => fixed 14 (.grpset {
      group := f 0 1, form := f 1 1, remotes := f 2 1, ceiling := f 3 5, floor := f 8 2, guard := f 10 2, missLimit := f 12 2 })
  | 8 => fixed 1 (.sprst (f 0 1))
  | 9 => fixed 1 (.incset (f 0 1))
  | 10 => fixed 0 .incclr
  | 11 => fixed 7 (.profset {
      row := f 0 1, announceMask := f 1 1, talkAuto := f 2 1, broadcastPreempt := f 3 1, shedRank := f 4 1,
      protectBreakIn := f 5 1, lineLevel := f 6 1 })
  | 12 => fixed 16 (.annc {
      tag := f 0 1, message := f 1 1, priority := f 2 1, plays := f 3 1, gap := f 4 2, zones := f 6 1, setForm := f 7 1,
      carriers := f 8 8 })
  | 13 => fixed 1 (.ancan (f 0 1))
  | 14 => fixed 7 (.voxset { deviation := f 0 1, amplitude := f 1 2, fadeStep := f 3 2, liveGain := f 5 2 })
  | 15 => fixed 2 (.pgopen (f 0 2))
  | 16 => if 3 + f 2 1 ≤ 43 then fixed (3 + f 2 1) (.pgdata (f 0 2) (bytesAt a 3 (f 2 1))) else none
  | 17 => fixed 0 .pgcommit
  | 18 => fixed 1 (.blkerase (f 0 1))
  | 19 => fixed 2 (.blkguard (f 0 1) (f 1 1))
  | 20 => fixed 7 (.msgdef { message := f 0 1, first := f 1 2, count := f 3 2, gain := f 5 2 })
  | 21 => fixed 1 (.msgclr (f 0 1))
  | 22 => fixed 1 (.trksel (f 0 1))
  | 23 => fixed 5 (.timset (f 0 4) (signedByte (f 4 1)))
  | 24 => fixed 0 .save
  | 25 => fixed 1 (.restart (f 0 1))
  | 26 => fixed 0 .causeclr
  | _ => none

/-- A request cell as read (R191): its check fails, it is empty, its form is MALFORMED, or it carries a request. -/
inductive CellRead where
  | badCheck
  | empty
  | malformed (tag kind : Nat)
  | request (tag : Nat) (r : Request)
  deriving DecidableEq, Repr

/-- The 48 bytes of a control cell, read (R191, R209, Table 11-4). A kind code that names no kind is answered with the
empty code (entry 14). -/
def readCell (c : List Byte) : CellRead :=
  if field c 46 2 ≠ (crc16 (c.take 46)).toNat then .badCheck
  else
    let code := field c 0 1
    let tag := field c 1 1
    if code = 0 then .empty
    else match parseRequest code (field c 2 1) (c.drop 3) with
      | some r => .request tag r
      | none => .malformed tag (if code ≤ 26 then code else 0)

/-! ### The codes of values that arguments name (chapter 11) -/

/-- 0 no, 1 yes. -/
def codeBool : Nat → Option Bool
  | 0 => some false
  | 1 => some true
  | _ => none

/-- Table 1-2: 0 MOBILE, 1 RESCUE, 2 BROADCAST. -/
def codeKind : Nat → Option CarrierKind
  | 0 => some .mobile
  | 1 => some .rescue
  | 2 => some .broadcast
  | _ => none

def CarrierKind.code : CarrierKind → Nat
  | .mobile => 0
  | .rescue => 1
  | .broadcast => 2

/-- Table 1-2: 0 OFF, 1 AUTO, 2 ON. -/
def codeTalk : Nat → Option TalkMode
  | 0 => some .off
  | 1 => some .auto
  | 2 => some .on
  | _ => none

def TalkMode.code : TalkMode → Nat
  | .off => 0
  | .auto => 1
  | .on => 2

/-- A trunk lane is 0..47, and 255 means NONE; any other code names no value. -/
def codeTrunkLane (n : Nat) : Option (Option TrunkLane) :=
  if h : n < 48 then some (some ⟨n, h⟩) else if n = 255 then some none else none

def trunkLaneCode : Option TrunkLane → Nat
  | some t => t.val
  | none => 255

/-- Table 2-1: 0 UNUSED, 1 CHAIN, 2 RING. -/
def codeForm : Nat → Option GroupForm
  | 0 => some .unused
  | 1 => some .chain
  | 2 => some .ring
  | _ => none

def GroupForm.code : GroupForm → Nat
  | .unused => 0
  | .chain => 1
  | .ring => 2

/-- A message is 0..47, and 255 means LIVE. -/
def codeMessage (n : Nat) : Option MessageRef :=
  if h : n < 48 then some (.stored ⟨n, h⟩) else if n = 255 then some .live else none

/-- 0 A, 1 B. -/
def codeTrunk : Nat → Option TrunkId
  | 0 => some .a
  | 1 => some .b
  | _ => none

/-- 0 A, 1 B. -/
def codeSide : Nat → Option Side
  | 0 => some .a
  | 1 => some .b
  | _ => none

/-- 0 BP0, 1 BP1. -/
def codePlayer : Nat → Option PlayerId
  | 0 => some .bp0
  | 1 => some .bp1
  | _ => none

/-- 0 KEEP, 1 RELOAD. -/
def codeRestart : Nat → Option RestartForm
  | 0 => some .keep
  | 1 => some .reload
  | _ => none

/-- 0 bar-erase, 1 bar-write. -/
inductive BarKind where
  | erase
  | write
  deriving DecidableEq, Repr

def codeBar : Nat → Option BarKind
  | 0 => some .erase
  | 1 => some .write
  | _ => none

end Sys2Proof.Machine
end

