-- ==== Sys2Proof/Machine/Sine.lean ====
section
/-! DEFINITION. The sine and cosine tables of the synthesiser (R152): SIN[i] is the nearest rounding of 32767 sin(2 pi i / 1024). The first quarter is written out; the rest follows by symmetry. -/
namespace Sys2Proof.Machine

/-- SIN[0..31]. -/
def sinPiece0 : List Nat := [0, 201, 402, 603, 804, 1005, 1206, 1407, 1608, 1809, 2009, 2210, 2410, 2611, 2811,
  3012, 3212, 3412, 3612, 3811, 4011, 4210, 4410, 4609, 4808, 5007, 5205, 5404, 5602, 5800, 5998, 6195]

/-- SIN[32..63]. -/
def sinPiece1 : List Nat := [6393, 6590, 6786, 6983, 7179, 7375, 7571, 7767, 7962, 8157, 8351, 8545, 8739, 8933,
  9126, 9319, 9512, 9704, 9896, 10087, 10278, 10469, 10659, 10849, 11039, 11228, 11417, 11605, 11793, 11980, 12167,
  12353]

/-- SIN[64..95]. -/
def sinPiece2 : List Nat := [12539, 12725, 12910, 13094, 13279, 13462, 13645, 13828, 14010, 14191, 14372, 14553,
  14732, 14912, 15090, 15269, 15446, 15623, 15800, 15976, 16151, 16325, 16499, 16673, 16846, 17018, 17189, 17360,
  17530, 17700, 17869, 18037]

/-- SIN[96..127]. -/
def sinPiece3 : List Nat := [18204, 18371, 18537, 18703, 18868, 19032, 19195, 19357, 19519, 19680, 19841, 20000,
  20159, 20317, 20475, 20631, 20787, 20942, 21096, 21250, 21403, 21554, 21705, 21856, 22005, 22154, 22301, 22448,
  22594, 22739, 22884, 23027]

/-- SIN[128..159]. -/
def sinPiece4 : List Nat := [23170, 23311, 23452, 23592, 23731, 23870, 24007, 24143, 24279, 24413, 24547, 24680,
  24811, 24942, 25072, 25201, 25329, 25456, 25582, 25708, 25832, 25955, 26077, 26198, 26319, 26438, 26556, 26674,
  26790, 26905, 27019, 27133]

/-- SIN[160..191]. -/
def sinPiece5 : List Nat := [27245, 27356, 27466, 27575, 27683, 27790, 27896, 28001, 28105, 28208, 28310, 28411,
  28510, 28609, 28706, 28803, 28898, 28992, 29085, 29177, 29268, 29358, 29447, 29534, 29621, 29706, 29791, 29874,
  29956, 30037, 30117, 30195]

/-- SIN[192..223]. -/
def sinPiece6 : List Nat := [30273, 30349, 30424, 30498, 30571, 30643, 30714, 30783, 30852, 30919, 30985, 31050,
  31113, 31176, 31237, 31297, 31356, 31414, 31470, 31526, 31580, 31633, 31685, 31736, 31785, 31833, 31880, 31926,
  31971, 32014, 32057, 32098]

/-- SIN[224..255]. -/
def sinPiece7 : List Nat := [32137, 32176, 32213, 32250, 32285, 32318, 32351, 32382, 32412, 32441, 32469, 32495,
  32521, 32545, 32567, 32589, 32609, 32628, 32646, 32663, 32678, 32692, 32705, 32717, 32728, 32737, 32745, 32752,
  32757, 32761, 32765, 32766]

/-- SIN[256..256]. -/
def sinPiece8 : List Nat := [32767]

/-- SIN[0..256], the first quarter of the table (R152). -/
def sinQuarter : List Nat :=
  sinPiece0 ++ sinPiece1 ++ sinPiece2 ++ sinPiece3 ++ sinPiece4 ++ sinPiece5 ++ sinPiece6 ++ sinPiece7 ++ sinPiece8

/-- SIN[i] (R152). -/
def sinTable (i : Nat) : Int :=
  let j := i % 1024
  let v := fun (k : Nat) => (((sinQuarter[k]?).getD 0 : Nat) : Int)
  if j ≤ 256 then v j else if j ≤ 512 then v (512 - j) else if j ≤ 768 then -v (j - 512) else -v (1024 - j)

/-- COS[i] is SIN[(i + 256) mod 1024] (R152). -/
def cosTable (i : Nat) : Int := sinTable (i + 256)

end Sys2Proof.Machine
end

