-- ==== Sys2Proof/Machine/StoreRead.lean ====
section
/-! DEFINITION. Reading the announcement store: page states, samples (R163), guards and messages (R164, R175). -/
namespace Sys2Proof.Machine

/-- The block of a page (R161). -/
def blockOf (p : PageId) : BlockId := ⟨p.val / 64, by omega⟩

/-- The index of a page within its block (R161). -/
def indexOf (p : PageId) : Fin 64 := ⟨p.val % 64, by omega⟩

/-- The state of a page (R161). -/
def Store.pageState (t : Store) (p : PageId) : PageState := (t.blocks.get (blockOf p)).pages.get (indexOf p)

/-- The state of a page set. -/
def Store.setPage (t : Store) (p : PageId) (st : PageState) : Store :=
  { t with blocks := t.blocks.edit (blockOf p) fun b => { b with pages := b.pages.put (indexOf p) st } }

/-- The first address of a page's content. -/
def pageBase (p : PageId) : Nat := 512 * p.val

/-- The sample of a page at an offset, as a byte, by the page's state (R163). -/
def Store.sample (t : Store) (p : PageId) (off : Nat) : Byte :=
  match t.pageState p with
  | .programmed => t.memory.read (pageBase p + off)
  | .failed => 0
  | _ => 0xFF

/-- Sample `k` of a message: offset `k mod 512` of page first + floor(k / 512) (R148). -/
def Store.messageSample (t : Store) (m : Message) (k : Nat) : Byte :=
  match index 2048 (m.first + k / 512) with
  | some p => t.sample p (k % 512)
  | none => 0xFF

/-- Whether page `p` lies in the run of a message (R175). -/
def Message.has (m : Message) (p : PageId) : Bool := m.first ≤ p.val && p.val < m.first + m.count

/-- Whether every page of a run is PROGRAMMED (R175). -/
def Store.runProgrammed (t : Store) (m : Message) : Bool :=
  (List.range m.count).all fun k => match index 2048 (m.first + k) with
    | some p => t.pageState p = .programmed
    | none => false

/-- Whether a READY message has a page in block `b` (R171). -/
def Store.blockInUse (t : Store) (b : BlockId) : Bool :=
  (List.finRange 48).any fun k => match t.messages.get k with
    | some m => m.first < 64 * (b.val + 1) && 64 * b.val < m.first + m.count
    | none => false

/-- The guard bars erase (R164). -/
def GuardState.barsErase : GuardState → Bool
  | .eraseBarred => true
  | .barred => true
  | _ => false

/-- The guard bars write (R164). -/
def GuardState.barsWrite : GuardState → Bool
  | .writeBarred => true
  | .barred => true
  | _ => false

end Sys2Proof.Machine
end

