-- ==== Sys2Proof/Machine/BreakIn.lean ====
section
/-! DEFINITION. Road broadcast break-in (chapter 7): announcement requests, the player arbiter, a player's work in a slot, lane coverage, the player parameters. -/
namespace Sys2Proof.Machine

/-- The record of a player. -/
def BreakIn.player (b : BreakIn) : PlayerId → Player
  | .bp0 => b.bp0
  | .bp1 => b.bp1

/-- The record of a player replaced. -/
def BreakIn.setPlayer (b : BreakIn) (p : PlayerId) (x : Player) : BreakIn :=
  match p with
  | .bp0 => { b with bp0 := x }
  | .bp1 => { b with bp1 := x }

/-- The held requests: queued, and on the players (R135). -/
def BreakIn.held (b : BreakIn) : List AnnRequest := b.queue ++ b.bp0.request.toList ++ b.bp1.request.toList

/-- The break-in unit at work, with the notices it raises, in order. -/
structure Bku where
  unit : BreakIn
  out : List Notice
  deriving DecidableEq, Repr

/-- One notice more. -/
def Bku.say (b : Bku) (n : Notice) : Bku := { b with out := b.out ++ [n] }

/-- A request joins behind every queued request of its priority, as by ANNC (R137). -/
def joinBehind (q : List AnnRequest) (r : AnnRequest) : List AnnRequest :=
  let ahead := fun x : AnnRequest => r.priority ≤ x.priority
  q.takeWhile ahead ++ r :: q.dropWhile ahead

/-- A request joins ahead of every queued request of its priority, as after a fade-out with REQUEUE (R137). -/
def joinAhead (q : List AnnRequest) (r : AnnRequest) : List AnnRequest :=
  let ahead := fun x : AnnRequest => r.priority < x.priority
  q.takeWhile ahead ++ r :: q.dropWhile ahead

/-! ### The arbiter (R143, R144) -/

/-- The lowest-numbered IDLE player. -/
def BreakIn.idlePlayer (b : BreakIn) : Option PlayerId :=
  if b.bp0.state = .idle then some .bp0 else if b.bp1.state = .idle then some .bp1 else none

/-- The zones of a player that is not IDLE. -/
def Player.zones (p : Player) : GroupSet :=
  match p.state, p.request with
  | .idle, _ => 0
  | _, some r => r.zones
  | _, none => 0

/-- A request is started on an IDLE player (R141); the request has left the queue. -/
def Bku.start (b : Bku) (p : PlayerId) (r : AnnRequest) : Bku :=
  (⟨b.unit.setPlayer p { (b.unit.player p) with
      state := .fadeIn, request := some r, intent := none, fade := 0, phase := 0, progress := 0, gapLeft := 0, liveMiss := 0 },
    b.out⟩ : Bku).say (.announceStart r.tag p r.message r.playsDone)

/-- A player in FADE_IN, PLAYING or GAP. -/
def Player.running (p : Player) : Bool := p.state = .fadeIn || p.state = .playing || p.state = .gap

/-- A running player goes to FADE_OUT with an intent, its fade value kept (R140). -/
def Player.fadeOutWith (p : Player) (i : Intent) : Player := { p with state := .fadeOut, intent := some i }

/-- A running player whose request is below `r` in priority and meets it in zones fades out for it (R144). -/
def Player.yieldTo (p : Player) (r : AnnRequest) : Player :=
  match p.request with
  | some q => if p.running && q.priority < r.priority && (q.zones &&& r.zones) != 0 then p.fadeOutWith .requeue else p
  | none => p

/-- The walk over the queue with its blocked set: what stays queued, and the unit after it (R143, R144). -/
def Bku.walk (mask : Nat) : List AnnRequest → GroupSet → Bku → List AnnRequest × Bku
  | [], _, b => ([], b)
  | r :: rest, blocked, b =>
    if r.priority < mask then
      let (kept, b') := Bku.walk mask rest blocked b
      (r :: kept, b')
    else
      match (if r.zones &&& blocked = 0 then b.unit.idlePlayer else none) with
      | some p => Bku.walk mask rest (blocked ||| r.zones) (b.start p r)
      | none =>
        let u := { b.unit with bp0 := b.unit.bp0.yieldTo r, bp1 := b.unit.bp1.yieldTo r }
        let (kept, b') := Bku.walk mask rest (blocked ||| r.zones) { b with unit := u }
        (r :: kept, b')

/-- One run of the player arbiter (R143). -/
def Bku.arbiter (mask : Nat) (b : Bku) : Bku :=
  let (kept, b') := Bku.walk mask b.unit.queue (b.unit.bp0.zones ||| b.unit.bp1.zones) b
  { b' with unit := { b'.unit with queue := kept } }

/-- A change of the announce mask: players below it fade out with REQUEUE, then one arbiter run (R145). -/
def Bku.maskChange (old new : Nat) (b : Bku) : Bku :=
  if old = new then b
  else
    let drop := fun p : Player => match p.request with
      | some q => if p.running && q.priority < new then p.fadeOutWith .requeue else p
      | none => p
    Bku.arbiter new { b with unit := { b.unit with bp0 := drop b.unit.bp0, bp1 := drop b.unit.bp1 } }

/-- A player whose fade-out has reached 0 becomes IDLE and its intent is carried out (R142). -/
def Bku.finish (b : Bku) (p : PlayerId) : Bku :=
  let x := b.unit.player p
  let u := b.unit.setPlayer p { x with state := .idle, request := none, intent := none }
  match x.request, x.intent with
  | some r, some (.finish o) => (⟨u, b.out⟩ : Bku).say (.announceEnd r.tag o r.playsDone)
  | some r, some .requeue => (⟨{ u with queue := joinAhead u.queue r }, b.out⟩ : Bku).say (.announceRequeued r.tag p r.playsDone)
  | _, _ => ⟨u, b.out⟩

/-- The break-in unit, as it acts in the hub. -/
def State.bkuView (s : State) : Bku := ⟨s.bku, []⟩

/-- The hub after the break-in unit's work, its notices raised in order. -/
def State.withBku (s : State) (b : Bku) : State := { s with bku := b.unit, mga := s.mga.raiseAll b.out }

/-! ### A player's work in a slot (R146 to R152) -/

/-- The fade step (R147). -/
def Player.fadeStep (step : Nat) (p : Player) : Player :=
  match p.state with
  | .fadeIn =>
    let f := min 4096 (p.fade + step)
    { p with fade := f, state := if f = 4096 then .playing else .fadeIn }
  | .fadeOut => { p with fade := p.fade - step }
  | _ => p

/-- The samples of a message: 512 per page (R148). -/
def Message.length (m : Message) : Nat := 512 * m.count

/-- The audio value of a slot, with the player after it and whether it took a message sample (R148, R149). -/
structure Audio where
  player : Player
  value : Int
  took : Bool
  deriving DecidableEq, Repr

/-- The audio step of a stored message (R148). -/
def Player.storedAudio (st : Store) (m : Message) (p : Player) : Audio :=
  if p.state = .fadeIn ∨ p.state = .playing ∨ (p.state = .fadeOut ∧ p.progress < m.length) then
    ⟨{ p with progress := p.progress + 1 }, (st.messageSample m p.progress).toInt * 256, true⟩
  else ⟨p, 0, false⟩

/-- The audio step of a LIVE request (R149). -/
def Player.liveAudio (speech : Option (BitVec 16)) (p : Player) : Audio :=
  match speech with
  | some w => ⟨{ p with liveMiss := 0 }, w.toInt, false⟩
  | none =>
    if p.state = .fadeIn ∨ p.state = .playing then
      let n := p.liveMiss + 1
      if 400 ≤ n then ⟨{ (p.fadeOutWith (.finish .sourceLost)) with liveMiss := 400 }, 0, false⟩
      else ⟨{ p with liveMiss := n }, 0, false⟩
    else ⟨p, 0, false⟩

/-- The level value (R151). -/
def levelValue (s16 : Int) (gain : Nat) : Int := max (-2048) (min (nearest (s16 * gain) 65536) 2047)

/-- The request with one play more (R150, R135). -/
def AnnRequest.played (r : AnnRequest) : AnnRequest := { r with playsDone := min 65535 (r.playsDone + 1) }

/-- The end of a play: another follows after the gap, or the player fades out with END(COMPLETED) (R150). -/
def Player.playEnded (p : Player) (r : AnnRequest) : Player :=
  let r' := r.played
  let q := { p with request := some r' }
  if r'.plays = 0 ∨ r'.playsDone < r'.plays then
    if 0 < r'.gap then { q with state := .gap, gapLeft := r'.gap } else { q with progress := 0 }
  else q.fadeOutWith (.finish .completed)

/-- The end of a gap: PLAYING where the fade is complete, FADE_IN otherwise, from the first sample (R150). -/
def Player.gapEnded (p : Player) : Player :=
  { p with gapLeft := 0, progress := 0, state := if p.fade = 4096 then .playing else .fadeIn }

/-- One slot of a gap (R150). -/
def Player.gapStep (p : Player) : Player := if p.gapLeft ≤ 1 then p.gapEnded else { p with gapLeft := p.gapLeft - 1 }

/-- The phase after sample `k` of the slot: advanced by a × D for each sample, modulo 65536 (R152). -/
def phaseAt (phase : BitVec 16) (a : Int) (d : Nat) (k : Nat) : BitVec 16 := phase + BitVec.ofInt 16 (a * d * (k + 1))

/-- The synthesised block (R152). -/
def synthBlock (phase : BitVec 16) (a : Int) (prm : VoxParams) : LaneBlock :=
  .make fun k =>
    let i := (phaseAt phase a prm.deviation k.val).toNat / 64
    Sample.ofInts (applyGain (cosTable i) prm.amplitude) (applyGain (sinTable i) prm.amplitude)

/-- What a player's work in a slot gives: the player, its block, its fade value, and whether its fade-out reached 0. -/
structure PlayerWork where
  player : Player
  block : LaneBlock
  fade : Nat
  ended : Bool
  deriving DecidableEq, Repr

/-- The five steps of a player that is not IDLE: fade, audio, level, repetition, synthesis (R146). -/
def Player.work (st : Store) (prm : VoxParams) (speech : Option (BitVec 16)) (p : Player) : PlayerWork :=
  let f := p.fadeStep prm.fadeStep
  let ended := f.state = .fadeOut ∧ f.fade = 0
  let silent := (⟨f, 0, false⟩ : Audio)
  let sound : Audio × Nat × Nat :=
    match f.request with
    | none => (silent, 0, 0)
    | some r => match r.message with
      | .live => (if f.state = .gap then silent else f.liveAudio speech, prm.liveGain, 0)
      | .stored m => match st.messages.get m with
        | some e => (f.storedAudio st e, e.gain, e.length)
        | none => (silent, 0, 0)
  let a := levelValue sound.1.value sound.2.1
  let q := sound.1.player
  let q := match q.state, q.request with
    | .gap, _ => q.gapStep
    | .fadeOut, _ => q
    | _, some r => if sound.1.took ∧ q.progress = sound.2.2 then q.playEnded r else q
    | _, none => q
  { player := { q with phase := phaseAt f.phase a prm.deviation 23 }
    block := synthBlock f.phase a prm
    fade := f.fade
    ended := ended }

/-- The work of a player in a slot; an IDLE player takes no step (R146). -/
def Player.slotWork (st : Store) (prm : VoxParams) (speech : Option (BitVec 16)) (p : Player) : Option PlayerWork :=
  if p.state = .idle then none else some (p.work st prm speech)

/-! ### Coverage (R153, R154) -/

/-- Whether a carrier set holds carrier `c` (R135). -/
def CarrierSet.has : CarrierSet → CarrierId → Bool
  | .all, _ => true
  | .only s, c => s.getLsbD c.val

/-- Whether a player covers a lane of group `g` (R153). -/
def Player.covers (ctb : Table Carrier 64) (p : Player) (g : GroupId) (x : Lane) : Bool :=
  match p.state, p.request, x.owner with
  | .idle, _, _ => false
  | _, some r, some c =>
    x.state = .live && r.zones.getLsbD g.val && (ctb.get c).fields.kind = .broadcast && (ctb.get c).fields.eligible && r.carriers.has c
  | _, _, _ => false

/-- The break-in player of a lane (R154). -/
def coverOf (ctb : Table Carrier 64) (b : BreakIn) (g : GroupId) (x : Lane) : Option PlayerId :=
  if b.bp0.covers ctb g x then some .bp0 else if b.bp1.covers ctb g x then some .bp1 else none

/-- The lane tables with the coverage of the slot written into them (R154). -/
def markLanes (ctb : Table Carrier 64) (b : BreakIn) (t : Table Group 8) : Table Group 8 :=
  .make fun g => { t.get g with lanes := .make fun l =>
    { (t.get g).lanes.get l with player := coverOf ctb b g ((t.get g).lanes.get l) } }

/-- How many lanes hold a player's mark. -/
def coveredBy (t : Table Group 8) (p : PlayerId) : Nat :=
  ((List.finRange 8).map fun g => ((List.finRange 32).filter fun l => ((t.get g).lanes.get l).player = some p).length).sum

/-- The break-in unit's work of slot `n`, given the two players' work and the marked lane tables (R146): intents of the
players that reached IDLE, BP0 first, then one arbiter run if there was one. -/
def Bku.slotWork (n : FrameNo) (mask : Nat) (w0 w1 : Option PlayerWork) (lanes : Table Group 8) (b : Bku) : Bku :=
  let after := fun (p : Player) (w : Option PlayerWork) (id : PlayerId) =>
    match w with
    | some x => { x.player with covered := coveredBy lanes id }
    | none => { p with covered := 0 }
  let ended := fun w : Option PlayerWork => match w with
    | some x => x.ended
    | none => false
  let b := { b with unit := { b.unit with bp0 := after b.unit.bp0 w0 .bp0, bp1 := after b.unit.bp1 w1 .bp1, lastWork := some n } }
  let b := if ended w0 then b.finish .bp0 else b
  let b := if ended w1 then b.finish .bp1 else b
  if ended w0 || ended w1 then b.arbiter mask else b

/-! ### Requests -/

/-- The values an ANNC names, read from their codes; none where the first check of R136 refuses. That a carrier-set form code of
neither 0 nor 1 is refused by that first check is the model's (entry 30). -/
def anncRequest (a : AnncArgs) : Option AnnRequest :=
  let set : Option CarrierSet := match a.setForm with
    | 0 => if BitVec.ofNat 64 a.carriers = 0 then none else some (.only (BitVec.ofNat 64 a.carriers))
    | 1 => some .all
    | _ => none
  match codeMessage a.message, set with
  | some m, some cs =>
    if a.tag = 0 ∨ BitVec.ofNat 8 a.zones = 0 then none
    else some {
      tag := a.tag, message := m, priority := min a.priority 15, plays := if m = .live then 0 else min a.plays 15,
      gap := a.gap, zones := BitVec.ofNat 8 a.zones, carriers := cs, playsDone := 0 }
  | _, _ => none

/-- Whether the message a request names is READY, or it is LIVE (R136). -/
def Store.ready (t : Store) : MessageRef → Bool
  | .stored m => (t.messages.get m).isSome
  | .live => true

/-- Where a request stands after the arbiter run, in the response to ANNC (R136; entry 13): the player it was started on,
or its place in the queue, and the mark of a priority below the mask. -/
def placeReport (b : BreakIn) (mask : Nat) (r : AnnRequest) : List Byte :=
  let on := fun p : Player => p.request.any fun q => q.tag == r.tag
  let player := if on b.bp0 then some 0 else if on b.bp1 then some 1 else none
  let place := b.queue.findIdx? fun q => q.tag == r.tag
  optionalField 1 player ++ optionalField 1 place ++ be 1 (yes (place.isSome && r.priority < mask))

/-- ANNC (R136). -/
def annc (a : AnncArgs) (s : State) : Answer :=
  match anncRequest a with
  | none => refuse .range s
  | some r =>
    if s.bku.held.any (·.tag == r.tag) then refuse .inUse s
    else if !s.ast.ready r.message then refuse .state s
    else if 16 ≤ s.bku.held.length then refuse .noRoom s
    else
      let mask := s.ict.row.announceMask
      let b := Bku.arbiter mask ⟨{ s.bku with queue := joinBehind s.bku.queue r }, []⟩
      okWith (s.withBku b) (changedFields [(2, r.priority != a.priority), (3, r.plays != a.plays)] ++ placeReport b.unit mask r)

/-- A player whose request is cancelled (R138). -/
def Player.cancelled (p : Player) (tag : Nat) : Player :=
  if p.request.any (·.tag == tag) then p.fadeOutWith (.finish .cancelled) else p

/-- A request cancelled in the queue or on a player, before the arbiter runs (R138). -/
def Bku.cancel (b : Bku) (tag : Nat) : Bku :=
  match b.unit.queue.find? (·.tag == tag) with
  | some r => (⟨{ b.unit with queue := b.unit.queue.filter (·.tag != tag) }, b.out⟩ : Bku).say (.announceEnd tag .cancelled r.playsDone)
  | none => { b with unit := { b.unit with bp0 := b.unit.bp0.cancelled tag, bp1 := b.unit.bp1.cancelled tag } }

/-- ANCAN (R138). -/
def ancan (tag : Nat) (s : State) : Answer :=
  if tag = 0 then refuse .range s
  else if s.bku.held.all (·.tag != tag) then refuse .notFound s
  else okWith (s.withBku (Bku.arbiter s.ict.row.announceMask (s.bkuView.cancel tag))) []

/-- VOXSET (R155). -/
def voxset (a : VoxsetArgs) (s : State) : Answer :=
  let p : VoxParams := ⟨min a.deviation 31, min a.amplitude 4096, max 1 (min a.fadeStep 4096), a.liveGain⟩
  okWith { s with bku := { s.bku with params := p } }
    (changedFields [(0, p.deviation != a.deviation), (1, p.amplitude != a.amplitude), (2, p.fadeStep != a.fadeStep)])

/-- The meaning of ANNC. -/
def execAnnc (p : TrunkId) (tag : Nat) (a : AnncArgs) (s : State) : Host.Outcome State Fault Refusal :=
  requestCommand p tag (requestCode (.annc a)) (annc a) s

/-- The meaning of ANCAN. -/
def execAncan (p : TrunkId) (tag n : Nat) (s : State) : Host.Outcome State Fault Refusal :=
  requestCommand p tag (requestCode (.ancan n)) (ancan n) s

/-- The meaning of VOXSET. -/
def execVoxset (p : TrunkId) (tag : Nat) (a : VoxsetArgs) (s : State) : Host.Outcome State Fault Refusal :=
  requestCommand p tag (requestCode (.voxset a)) (voxset a) s

/-! ### Counts of a player that run out (entry 1) -/

/-- FADE_END: a fade-in whose next step reaches 4096 makes the player PLAYING; a fade-out whose next step reaches 0 makes
it IDLE, its intent carried out and the arbiter run (R147, R142). -/
def fadeEnd (id : PlayerId) (s : State) : State :=
  let p := s.bku.player id
  match p.state with
  | .fadeIn =>
    if 4096 ≤ p.fade + s.bku.params.fadeStep then
      { s with bku := s.bku.setPlayer id { p with fade := 4096, state := .playing } }
    else s
  | .fadeOut =>
    if p.fade ≤ s.bku.params.fadeStep then
      s.withBku (Bku.arbiter s.ict.row.announceMask
        (Bku.finish ⟨s.bku.setPlayer id { p with fade := 0 }, []⟩ id))
    else s
  | _ => s

/-- GAP_END: the gap remaining runs out and the player returns to PLAYING or FADE_IN from the first sample (R150). -/
def gapEnd (id : PlayerId) (s : State) : State :=
  let p := s.bku.player id
  if p.state = .gap ∧ p.gapLeft ≤ 1 then { s with bku := s.bku.setPlayer id p.gapEnded } else s

/-- LIVE_SPEECH_LOSS: the live-miss count reaches 400 and the player goes to FADE_OUT with END(SOURCE_LOST) (R149). -/
def liveSpeechLoss (id : PlayerId) (s : State) : State :=
  let p := s.bku.player id
  if (p.state = .fadeIn ∨ p.state = .playing) ∧ p.request.any (fun r => r.message == .live) ∧ 399 ≤ p.liveMiss then
    { s with bku := s.bku.setPlayer id { (p.fadeOutWith (.finish .sourceLost)) with liveMiss := 400 } }
  else s

/-- The meaning of FADE_END. -/
def execFadeEnd (id : PlayerId) (s : State) : Host.Outcome State Fault Refusal := eventCommand (fadeEnd id) s

/-- The meaning of GAP_END. -/
def execGapEnd (id : PlayerId) (s : State) : Host.Outcome State Fault Refusal := eventCommand (gapEnd id) s

/-- The meaning of LIVE_SPEECH_LOSS. -/
def execLiveSpeechLoss (id : PlayerId) (s : State) : Host.Outcome State Fault Refusal := eventCommand (liveSpeechLoss id) s

end Sys2Proof.Machine
end

