-- ==== Sys2Proof/Machine/Carriers.lean ====
section
/-! DEFINITION. The carrier requests (chapter 1): CARSET, CARON, CAROFF, CARCLR, TRIM, and when talk-through runs (R19). -/
namespace Sys2Proof.Machine

/-- The values of a CARSET that name something, read from their codes; none where one is undefined, out of range, or a
BROADCAST carrier names an uplink destination (R7, R9). -/
structure CarsetNamed where
  kind : CarrierKind
  dlSource : Option TrunkLane
  ulDest : Option TrunkLane
  talkMode : TalkMode
  eligible : Bool
  startActive : Bool
  deriving DecidableEq, Repr

/-- The second check of R9: none where it refuses. -/
def carsetNamed (a : CarsetArgs) : Option CarsetNamed :=
  match codeKind a.kind, codeTalk a.talkMode, codeBool a.eligible, codeBool a.startActive, codeTrunkLane a.dlSource,
      codeTrunkLane a.ulDest with
  | some k, some t, some e, some st, some src, some dst =>
    if 4095 < a.rfCode then none
    else if k = .broadcast ∧ dst.isSome then none
    else some ⟨k, src, dst, t, e, st⟩
  | _, _, _, _, _, _ => none

/-- The fields as stored, forced and clamped (R7). -/
def carsetFields (a : CarsetArgs) (v : CarsetNamed) : CarrierFields :=
  let sqOpen := min a.sqOpen 2147483648
  { kind := v.kind
    rfCode := a.rfCode
    dlSource := v.dlSource
    ulDest := v.ulDest
    dlGain := a.dlGain
    ulGain := a.ulGain
    sqOpen := sqOpen
    sqClose := min a.sqClose sqOpen
    hang := a.hang
    rank := if v.kind = .mobile then min a.rank 15 else 0
    talkMode := if v.kind = .rescue then v.talkMode else .off
    talkGain := if v.kind = .rescue then a.talkGain else 4096
    eligible := if v.kind = .broadcast then v.eligible else false
    startActive := v.startActive }

/-- The list of fields whose stored value differs from the value supplied (R9), by place among the arguments (Table 11-5). -/
def carsetChanged (a : CarsetArgs) (f : CarrierFields) : List Byte :=
  changedFields [(8, f.sqOpen != a.sqOpen), (9, f.sqClose != a.sqClose), (11, f.rank != a.rank),
    (12, f.talkMode.code != a.talkMode), (13, f.talkGain != a.talkGain), (14, yes f.eligible != a.eligible)]

/-- Whether group `g` is in the set of a CARSET: bit `g` of its byte (Table 11-5). -/
def inSet (groups : Nat) (g : GroupId) : Bool := groups.testBit g.val

/-- The placement records that follow a new placement set: a kept group keeps its record, a new one gets trim 4096 (R9). -/
def placementsFor (old : Table (Option Placement) 8) (groups : Nat) : Table (Option Placement) 8 :=
  .make fun g => if inSet groups g then some ((old.get g).getD ⟨none, 4096⟩) else none

/-- Whether every structural field of the new fields and set matches the stored record (R10). -/
def sameStructure (r : Carrier) (f : CarrierFields) (groups : Nat) : Bool :=
  r.fields.kind = f.kind && r.fields.rfCode = f.rfCode && r.fields.dlSource = f.dlSource && r.fields.ulDest = f.ulDest &&
  (List.finRange 8).all fun g => (r.placements.get g).isSome == inSet groups g

/-- CARSET (R9, R10). -/
def carset (a : CarsetArgs) (s : State) : Answer :=
  match index 64 a.carrier, carsetNamed a with
  | some c, some v =>
    let r := s.ctb.get c
    let f := carsetFields a v
    if r.state = .active then
      if sameStructure r f a.groups then okWith { s with ctb := s.ctb.put c { r with fields := f } } (carsetChanged a f)
      else refuse .state s
    else okWith { s with ctb := s.ctb.put c ⟨.defined, f, placementsFor r.placements a.groups⟩ } (carsetChanged a f)
  | _, _ => refuse .range s

/-- The state of a placement in a CARON response: the state, and the lane where HELD (R13; entry 13). -/
def placementReport (a : Alloc) (c : CarrierId) (g : GroupId) : List Byte :=
  let held := a.placementState c g = some .held
  let code := match a.placementState c g with
    | some .waiting => 0
    | some .held => 1
    | some .shed => 2
    | none => 0
  be 1 code ++ optionalField 1 (if held then (a.laneOf g c).map Fin.val else none)

/-- CARON (R12, R13). A new activation starts with no talk-through history and no last close (R109, R113). -/
def caron (n : Nat) (s : State) : Answer :=
  match index 64 n with
  | none => refuse .range s
  | some c =>
    match s.alloc.activationRefusal c with
    | some st => refuse st s
    | none =>
      let a := s.alloc.activate s.ict.row c
      let t := s.withAlloc a
      okWith { t with ucb := { t.ucb with lastClose := t.ucb.lastClose.put c none } }
        (be 1 (a.groups c).length ++ (a.groups c).flatMap (placementReport a c))

/-- CAROFF (R14): the placements are released, the carrier is DEFINED, its talk-through history is emptied. -/
def caroff (n : Nat) (s : State) : Answer :=
  match index 64 n with
  | none => refuse .range s
  | some c =>
    if (s.ctb.get c).state ≠ .active then refuse .state s
    else
      let t := s.withAlloc (s.alloc.deactivate s.ict.row c)
      okWith { t with ucb := { t.ucb with history := t.ucb.history.put c [] } } []

/-- CARCLR (R15). -/
def carclr (n : Nat) (s : State) : Answer :=
  match index 64 n with
  | none => refuse .range s
  | some c =>
    match (s.ctb.get c).state with
    | .active => refuse .state s
    | .free => okWith s []
    | .defined => okWith { s with ctb := s.ctb.put c .default } []

/-- TRIM (R18). -/
def trim (n gn v : Nat) (s : State) : Answer :=
  match index 64 n, index 8 gn with
  | some c, some g =>
    let r := s.ctb.get c
    match r.placements.get g with
    | none => refuse .state s
    | some p =>
      if r.state = .free then refuse .state s
      else okWith { s with ctb := s.ctb.put c { r with placements := r.placements.put g (some { p with trim := min v 8192 }) } }
        (changedFields [(2, decide (8192 < v))])
  | _, _ => refuse .range s

/-- Whether talk-through runs for carrier `c`, as the state stands at a slot event (R19). -/
def talkThrough (s : State) (c : CarrierId) : Bool :=
  let r := s.ctb.get c
  r.state = .active && r.fields.kind = .rescue &&
    (r.fields.talkMode = .on || (r.fields.talkMode = .auto && (s.fps.island || s.ict.row.talkAuto)))

/-- The meaning of CARSET. -/
def execCarset (p : TrunkId) (tag : Nat) (a : CarsetArgs) (s : State) : Host.Outcome State Fault Refusal :=
  requestCommand p tag (requestCode (.carset a)) (carset a) s

/-- The meaning of CARON. -/
def execCaron (p : TrunkId) (tag c : Nat) (s : State) : Host.Outcome State Fault Refusal :=
  requestCommand p tag (requestCode (.caron c)) (caron c) s

/-- The meaning of CAROFF. -/
def execCaroff (p : TrunkId) (tag c : Nat) (s : State) : Host.Outcome State Fault Refusal :=
  requestCommand p tag (requestCode (.caroff c)) (caroff c) s

/-- The meaning of CARCLR. -/
def execCarclr (p : TrunkId) (tag c : Nat) (s : State) : Host.Outcome State Fault Refusal :=
  requestCommand p tag (requestCode (.carclr c)) (carclr c) s

/-- The meaning of TRIM. -/
def execTrim (p : TrunkId) (tag c g v : Nat) (s : State) : Host.Outcome State Fault Refusal :=
  requestCommand p tag (requestCode (.trim c g v)) (trim c g v) s

end Sys2Proof.Machine
end

