-- ==== Sys2Proof/Machine/Span.lean ====
section
/-! DEFINITION. Span ports and remote units (chapter 4): links, side contexts, the examination of sections, the Span Interface's part of a close, GRPSET (R24, R25) and SPRST. -/
namespace Sys2Proof.Machine

/-- What the span interface acts on: ports, remotes, the combine window, and the notices it raises, in order. -/
structure Spans where
  ports : Table SpanPort 8
  remotes : Table (Table Remote 6) 8
  window : List WindowSlot
  out : List Notice
  deriving DecidableEq, Repr

/-- What the span interface acts on, in the hub. -/
def State.spans (s : State) : Spans := ⟨s.sif.ports, s.sif.remotes, s.ucb.window, []⟩

/-- The hub after the span interface's work, its notices raised in order. -/
def State.withSpans (s : State) (v : Spans) : State :=
  { s with
    sif := { s.sif with ports := v.ports, remotes := v.remotes }
    ucb := { s.ucb with window := v.window }
    mga := s.mga.raiseAll v.out }

/-- One notice more. -/
def Spans.say (v : Spans) (n : Notice) : Spans := { v with out := v.out ++ [n] }

/-- The configuration of a group. -/
def configOf (lal : Table Group 8) (g : GroupId) : GroupConfig := (lal.get g).config

/-- The port before an odd-numbered one. -/
def portBefore (p : SpanId) : SpanId := ⟨p.val - 1, by omega⟩

/-- The group a span port serves and the side it is, where it is enabled (R23, R76). -/
def servedBy (lal : Table Group 8) (p : SpanId) : Option (GroupId × Side) :=
  if (configOf lal p).form ≠ .unused then some (p, .a)
  else if p.val % 2 = 1 ∧ (configOf lal (portBefore p)).form = .ring then some (portBefore p, .b)
  else none

/-- A span port is enabled when it serves a group (R23). -/
def enabled (lal : Table Group 8) (p : SpanId) : Bool := (servedBy lal p).isSome

/-! ### Links (R70 to R73) -/

/-- The verdict on a span port: a good frame, or a bad frame or missed slot (R72). -/
inductive SpanVerdict where
  | good
  | bad
  deriving DecidableEq, Repr

/-- The link transitions of Table 4-1. The good run of an UP port stands at 4, and is 0 once it goes DOWN from UP (entry 15). -/
def SpanPort.move (p : SpanPort) (v : SpanVerdict) : SpanPort :=
  match p.link, v with
  | .down, .good => { p with link := .aligning, goodRun := 1 }
  | .down, .bad => p
  | .aligning, .good =>
    if 4 ≤ p.goodRun + 1 then { p with link := .up, goodRun := 4, badRun := 0 } else { p with goodRun := p.goodRun + 1 }
  | .aligning, .bad => { p with link := .down, goodRun := 0 }
  | .up, .good => { p with badRun := 0 }
  | .up, .bad => if 8 ≤ p.badRun + 1 then { p with link := .down, goodRun := 0, badRun := 0 } else { p with badRun := p.badRun + 1 }

/-- The side context of a remote. -/
def Remote.ctx (r : Remote) : Side → Context
  | .a => r.ctxA
  | .b => r.ctxB

/-- The side context of a remote replaced. -/
def Remote.setCtx (r : Remote) (sd : Side) (c : Context) : Remote :=
  match sd with
  | .a => { r with ctxA := c }
  | .b => { r with ctxB := c }

/-- The other side. -/
def otherSide : Side → Side
  | .a => .b
  | .b => .a

/-- A remote record. -/
def Spans.remote (v : Spans) (g : GroupId) (k : Pos) : Remote := (v.remotes.get g).get k

/-- A remote record changed. -/
def Spans.editRemote (v : Spans) (g : GroupId) (k : Pos) (f : Remote → Remote) : Spans :=
  { v with remotes := v.remotes.edit g fun t => t.edit k f }

/-- A side context. -/
def Spans.ctx (v : Spans) (g : GroupId) (k : Pos) (sd : Side) : Context := (v.remote g k).ctx sd

/-- A side context replaced. -/
def Spans.setCtx (v : Spans) (g : GroupId) (k : Pos) (sd : Side) (c : Context) : Spans :=
  v.editRemote g k fun r => r.setCtx sd c

/-- A section is filed under this key (R96). -/
def Filed.under (f : Filed) (g : GroupId) (k : Pos) (sd : Side) : Bool := f.group = g && f.pos = k && f.side = sd

/-- The sections of a key are withdrawn from every open slot (R75). -/
def withdraw (w : List WindowSlot) (g : GroupId) (k : Pos) (sd : Side) : List WindowSlot :=
  w.map fun x => { x with filed := x.filed.filter fun f => !f.under g k sd }

/-- A context goes to WAITING with a reason, its miss run 0; it had filed sections, which are withdrawn, and REMOTE_STATE
is raised (R75). -/
def Spans.toWaiting (v : Spans) (g : GroupId) (k : Pos) (sd : Side) (why : WaitReason) : Spans :=
  let c := v.ctx g k sd
  let v := v.setCtx g k sd { c with state := .waiting, reason := some why, missRun := 0 }
  ({ v with window := withdraw v.window g k sd }).say (.remoteState g k sd .waiting (some why))

/-- A TRACKING context of a port that has gone DOWN becomes WAITING(SILENT) (R73). -/
def Spans.silence (g : GroupId) (sd : Side) (v : Spans) (k : Pos) : Spans :=
  if (v.ctx g k sd).state = .tracking then v.toWaiting g k sd .silent else v

/-- A port moves its link state; a change raises SPAN_STATE, and a port gone DOWN from UP silences its contexts (R72, R73), in
ascending position, which is the model's order (entry 3). -/
def Spans.movePort (lal : Table Group 8) (v : Spans) (p : SpanId) (vd : SpanVerdict) : Spans :=
  let old := v.ports.get p
  let new := old.move vd
  let v := { v with ports := v.ports.put p new }
  let v := if new.link = old.link then v else v.say (.spanState p new.link)
  match old.link, new.link, servedBy lal p with
  | .up, .down, some (g, sd) => (List.finRange 6).foldl (Spans.silence g sd) v
  | _, _, _ => v

/-! ### Sections (R76 to R81) -/

/-- The open slots of the window. -/
def openSlots (w : List WindowSlot) : List FrameNo := w.map (·.hfn)

/-- The step offset of a section: the distance from the expected echo to its echo, in -32768..32767 (R79). -/
def stepOffset (c : Context) (h : SectionHeader) : Int := (h.echo - c.expEcho).toInt

/-- The step test (R79). -/
def inStep (c : Context) (h : SectionHeader) : Bool :=
  let k := stepOffset c h
  h.count - c.expCount == BitVec.ofInt 8 k && -(c.missRun : Int) ≤ k && k ≤ 3

/-- The radiator state of a code, where it is one of the three (R76, Table 11-3). -/
def codeRadiator (r : BitVec 2) : Option Radiator :=
  match r.toNat with
  | 0 => some .ok
  | 1 => some .feederFault
  | 2 => some .paOff
  | _ => none

/-- The configured position a position field names (R76). -/
def configuredPos (cfg : GroupConfig) (p : BitVec 3) : Option Pos :=
  match index 6 (p.toNat - 1) with
  | some k => if p ≠ 0 ∧ cfg.configured k then some k else none
  | none => none

/-- A section filed under its key in the slot of its echo, replacing one filed there (R80). -/
def fileSection (w : List WindowSlot) (echo : FrameNo) (f : Filed) : List WindowSlot :=
  w.map fun x => if x.hfn = echo then { x with filed := x.filed.filter (fun y => !y.under f.group f.pos f.side) ++ [f] } else x

/-- The reports of a section accepted on the feed side (R81). -/
def Spans.takeReports (v : Spans) (g : GroupId) (k : Pos) (sd : Side) (h : BitVec 2) (r : Radiator) : Spans :=
  let x := v.remote g k
  if x.feed ≠ sd then v
  else
    let v' := v.editRemote g k fun x => { x with headroom := some h, radiator := some r }
    if x.headroom = some h ∧ x.radiator = some r then v' else v'.say (.remoteReport g k h r)

/-- A section that passed the tests of R76 to R79 with offset `k` is accepted where its slot is open, whatever its offset, and
found LATE where it is not (R80, R98; entry 11). -/
def Spans.windowTest (v : Spans) (g : GroupId) (pos : Pos) (sd : Side) (h : SectionHeader) (rad : Radiator) (k : Int)
    (blocks : Table LaneBlock 32) : Spans :=
  let c := v.ctx g pos sd
  if (openSlots v.window).contains h.echo then
    let v := v.setCtx g pos sd { c with expCount := h.count + 1, expEcho := h.echo + 1, missRun := 0, accepted := bump c.accepted }
    let v := { v with window := fileSection v.window h.echo ⟨g, pos, sd, blocks⟩ }
    v.takeReports g pos sd h.headroom rad
  else if 0 ≤ k then
    v.setCtx g pos sd { c with expCount := h.count + 1, expEcho := h.echo + 1, missRun := 0, late := bump c.late }
  else v.setCtx g pos sd { c with missRun := (-k - 1).toNat, late := bump c.late }

/-- A section taken to its side context (R77 to R80). -/
def Spans.consult (v : Spans) (g : GroupId) (pos : Pos) (sd : Side) (h : SectionHeader) (rad : Radiator)
    (blocks : Table LaneBlock 32) : Spans :=
  let c := v.ctx g pos sd
  match c.state, h.start with
  | .idle, _ => v
  | .waiting, false => v.setCtx g pos sd { c with unstarted := bump c.unstarted }
  | .waiting, true =>
    let v := v.setCtx g pos sd { c with state := .tracking, reason := none, expCount := h.count, expEcho := h.echo }
    (v.say (.remoteState g pos sd .tracking none)).windowTest g pos sd h rad 0 blocks
  | .tracking, true =>
    let v := if inStep c h then v else v.say (.remoteResync g pos sd c.expCount c.expEcho h.count h.echo)
    (v.setCtx g pos sd { c with expCount := h.count, expEcho := h.echo }).windowTest g pos sd h rad 0 blocks
  | .tracking, false =>
    if inStep c h then v.windowTest g pos sd h rad (stepOffset c h) blocks
    else (v.setCtx g pos sd { c with orderFaults := bump c.orderFaults }).toWaiting g pos sd .order

/-- The examination of one section read from a frame on port `p`, which serves group `g` as side `sd` (R76). -/
def Spans.examine (lal : Table Group 8) (p : SpanId) (g : GroupId) (sd : Side) (v : Spans) (bs : List Byte) : Spans :=
  if !sectionCheckPasses bs then
    { v with ports := v.ports.edit p fun x => { x with sectionFaults := bump x.sectionFaults } }
  else
    let h := sectionHeader bs
    match configuredPos (configOf lal g) h.position, codeRadiator h.radiator with
    | some pos, some rad => v.consult g pos sd h rad (sectionBlocks bs)
    | _, _ =>
      ({ v with ports := v.ports.edit p fun x => { x with unknownSections := bump x.unknownSections } }).say
        (.sectionFault p h.position h.echo h.radiator)

/-- A span uplink frame received whole on an enabled port (R70). -/
def Spans.frame (lal : Table Group 8) (p : SpanId) (g : GroupId) (sd : Side) (bs : List Byte) (v : Spans) : Spans :=
  let good := spanFrameGood bs
  let v := { v with ports := v.ports.edit p fun x =>
    if good then { x with arrived := true, goodFrames := bump x.goodFrames } else { x with arrived := true, frameFaults := bump x.frameFaults } }
  let v := v.movePort lal p (if good then .good else .bad)
  if good && (v.ports.get p).link = .up then (frameSections bs).foldl (Spans.examine lal p g sd) v else v

/-- SPAN_UPLINK_FRAME_ARRIVAL: on a port that is not enabled the frame is discarded (R69, R70). -/
def spanUplinkFrameArrival (p : SpanId) (bs : List Byte) (s : State) : State :=
  match servedBy s.lal p with
  | some (g, sd) => s.withSpans (s.spans.frame s.lal p g sd bs)
  | none => s

/-- The meaning of SPAN_UPLINK_FRAME_ARRIVAL; while the hub is held in reset the frame is discarded (R95). -/
def execSpanUplinkFrameArrival (p : SpanId) (bs : List Byte) (s : State) : Host.Outcome State Fault Refusal :=
  eventCommand (spanUplinkFrameArrival p bs) s

/-! ### The slot event (R71) -/

/-- The judgement of one port at a slot event: a port with no arrival misses, and the flag is cleared (R71). -/
def Spans.missPort (lal : Table Group 8) (v : Spans) (p : SpanId) : Spans :=
  if enabled lal p then
    let x := v.ports.get p
    let v := if x.arrived then v
      else ({ v with ports := v.ports.put p { x with missedSlots := bump x.missedSlots } }).movePort lal p .bad
    { v with ports := v.ports.edit p fun y => { y with arrived := false } }
  else v

/-- The judgement of every port (R71). -/
def Spans.missSlots (lal : Table Group 8) (v : Spans) : Spans := (List.finRange 8).foldl (Spans.missPort lal) v

/-! ### The Span Interface's part of a close (R82 to R85) -/

/-- The section filed for slot `h` under a key. -/
def filedFor (w : List WindowSlot) (h : FrameNo) (g : GroupId) (k : Pos) (sd : Side) : Option Filed :=
  ((w.find? fun x => x.hfn = h).map (·.filed)).bind fun fs => fs.find? fun f => f.under g k sd

/-- A miss counted on a TRACKING context: the run rises, and expectations at the closing slot keep pace with it (R82). -/
def Context.miss (c : Context) (h : FrameNo) : Context :=
  if c.expEcho = h then { c with missRun := c.missRun + 1, expCount := c.expCount + 1, expEcho := c.expEcho + 1 }
  else { c with missRun := c.missRun + 1 }

/-- A counted miss, after which a context whose run stands at or above the limit is given up (R82, R83). -/
def Spans.countMiss (cfg : GroupConfig) (h : FrameNo) (g : GroupId) (k : Pos) (sd : Side) (v : Spans) : Spans :=
  let c := (v.ctx g k sd).miss h
  let v := v.setCtx g k sd c
  if cfg.missLimit ≤ c.missRun then v.toWaiting g k sd .silent else v

/-- One context at the close of slot `h` (R82, R83). -/
def Spans.closeContext (cfg : GroupConfig) (h : FrameNo) (g : GroupId) (v : Spans) (key : Pos × Side) : Spans :=
  if (v.ctx g key.1 key.2).state = .tracking ∧ filedFor v.window h g key.1 key.2 = none then
    v.countMiss cfg h g key.1 key.2
  else v

/-- The feed side of a ring remote moves to a side that is TRACKING when its own is not (R84). -/
def Spans.closeFeed (cfg : GroupConfig) (g : GroupId) (v : Spans) (k : Pos) : Spans :=
  let r := v.remote g k
  if cfg.form = .ring ∧ cfg.configured k ∧ (r.ctx r.feed).state ≠ .tracking ∧ (r.ctx (otherSide r.feed)).state = .tracking then
    (v.editRemote g k fun r => { r with feed := otherSide r.feed }).say (.remoteSide g k (otherSide r.feed))
  else v

/-- The in-service flag of a remote (R85). -/
def Spans.closeService (cfg : GroupConfig) (g : GroupId) (v : Spans) (k : Pos) : Spans :=
  v.editRemote g k fun r => { r with inService := cfg.configured k && (r.ctx r.feed).state = .tracking }

/-- The keys of a group's contexts: positions ascending, side A before side B. -/
def contextKeys : List (Pos × Side) := (List.finRange 6).flatMap fun k => [(k, .a), (k, .b)]

/-- The Span Interface's part of the close of slot `h` for one group (R82 to R85). -/
def Spans.closeGroup (lal : Table Group 8) (h : FrameNo) (v : Spans) (g : GroupId) : Spans :=
  let cfg := configOf lal g
  if cfg.form = .unused then v
  else
    let v := contextKeys.foldl (Spans.closeContext cfg h g) v
    let v := (List.finRange 6).foldl (Spans.closeFeed cfg g) v
    (List.finRange 6).foldl (Spans.closeService cfg g) v

/-- The Span Interface's part of the close of slot `h`, every served group in ascending number. -/
def Spans.close (lal : Table Group 8) (h : FrameNo) (v : Spans) : Spans := (List.finRange 8).foldl (Spans.closeGroup lal h) v

/-- MISS_LIMIT_REACHED: a TRACKING context whose next counted miss reaches the limit becomes WAITING(SILENT), as at the
close made by the next slot event (R83; entry 1). -/
def missLimitReached (g : GroupId) (k : Pos) (sd : Side) (s : State) : State :=
  let cfg := configOf s.lal g
  let c := s.spans.ctx g k sd
  if c.state = .tracking ∧ cfg.missLimit ≤ c.missRun + 1 then
    s.withSpans (s.spans.countMiss cfg (s.fps.next - 4) g k sd)
  else s

/-- The meaning of MISS_LIMIT_REACHED. -/
def execMissLimitReached (g : GroupId) (k : Pos) (sd : Side) (s : State) : Host.Outcome State Fault Refusal :=
  eventCommand (missLimitReached g k sd) s

/-! ### Requests: GRPSET (R24 to R26) and SPRST (R93) -/

/-- A group set up anew: every context new, every section filed for the group discarded (R25). -/
def Spans.setUpGroup (cfg : GroupConfig) (g : GroupId) (v : Spans) : Spans :=
  { v with
    remotes := v.remotes.put g (setUpRemotes cfg)
    window := v.window.map fun x => { x with filed := x.filed.filter fun f => f.group != g } }

/-- A port that ceases to be enabled goes DOWN, with SPAN_STATE where it was not, its runs, flag and quiet count cleared
(R25, R69); the counters stand (entry 17). -/
def Spans.dropPort (old new : Table Group 8) (v : Spans) (p : SpanId) : Spans :=
  if enabled old p && !enabled new p then
    let x := v.ports.get p
    let v := { v with ports := v.ports.put p { x with link := .down, goodRun := 0, badRun := 0, arrived := false, quiet := 0 } }
    if x.link = .down then v else v.say (.spanState p .down)
  else v

/-- The configuration a GRPSET stores, its tuning fields clamped (R24). -/
def grpsetConfig (a : GrpsetArgs) (form : GroupForm) : GroupConfig where
  form := form
  remotes := a.remotes
  ceiling := min a.ceiling maxPower
  floor := min a.floor 4096
  guard := max 8 (min a.guard 255)
  missLimit := max 8 (min a.missLimit 1024)

/-- The group after an even-numbered one. -/
def groupAfter (g : GroupId) : GroupId := if h : g.val + 1 < 8 then ⟨g.val + 1, h⟩ else g

/-- The checks of R24 from the second on: none where the request is accepted. -/
def grpsetRefusal (s : State) (g : GroupId) (a : GrpsetArgs) (form : GroupForm) : Option Status :=
  let old := configOf s.lal g
  if a.remotes < 1 ∨ 6 < a.remotes then some .range
  else if form = .ring ∧ g.val % 2 = 1 then some .range
  else if form = .ring ∧ (configOf s.lal (groupAfter g)).form ≠ .unused then some .state
  else if form ≠ .unused ∧ g.val % 2 = 1 ∧ (configOf s.lal (portBefore g)).form = .ring then some .state
  else if (form ≠ old.form ∨ a.remotes ≠ old.remotes) ∧ (List.finRange 64).any (fun c =>
      (s.ctb.get c).state = .active && ((s.ctb.get c).placements.get g).isSome) then some .state
  else none

/-- GRPSET (R24 to R26). Where both ports of a ring go DOWN their SPAN_STATE notices join the queue in ascending port number,
which is the model's order (entry 3). The factor of a group that is or becomes UNUSED is raised to the new floor at once like
any other, as R63 bounds it, which is the model's choice (entry 28). -/
def grpset (a : GrpsetArgs) (s : State) : Answer :=
  match index 8 a.group, codeForm a.form with
  | some g, some form =>
    match grpsetRefusal s g a form with
    | some st => refuse st s
    | none =>
      let old := configOf s.lal g
      let cfg := grpsetConfig a form
      let lal := s.lal.edit g fun x => { x with config := cfg }
      let t := { s with lal := lal, dmx := s.dmx.edit g fun x => { x with factor := max x.factor cfg.floor } }
      let t := if form ≠ old.form ∨ a.remotes ≠ old.remotes then
          t.withSpans ((List.finRange 8).foldl (Spans.dropPort s.lal lal) (t.spans.setUpGroup cfg g))
        else t
      okWith t (changedFields [(3, cfg.ceiling != a.ceiling), (4, cfg.floor != a.floor), (5, cfg.guard != a.guard),
        (6, cfg.missLimit != a.missLimit)])
  | _, _ => refuse .range s

/-- A context on a port that is reset: WAITING(NEW) with zero values, its sections withdrawn, REMOTE_STATE where state or
reason changed (R93). -/
def Spans.resetContext (g : GroupId) (sd : Side) (v : Spans) (k : Pos) : Spans :=
  let c := v.ctx g k sd
  if c.state = .idle then v
  else
    let v := v.setCtx g k sd .new
    let v := { v with window := withdraw v.window g k sd }
    if c.state = .waiting ∧ c.reason = some .new then v else v.say (.remoteState g k sd .waiting (some .new))

/-- The reports of a remote fed from a port that is reset are made absent (R93). -/
def Spans.dropReports (g : GroupId) (sd : Side) (v : Spans) (k : Pos) : Spans :=
  v.editRemote g k fun r => if r.feed = sd then { r with headroom := none, radiator := none } else r

/-- The reset of one enabled span port (R93); its contexts go in ascending position, which is the model's order (entry 3). -/
def Spans.resetPort (p : SpanId) (g : GroupId) (sd : Side) (v : Spans) : Spans :=
  let x := v.ports.get p
  let v := { v with ports := v.ports.put p { SpanPort.default with quiet := 8 } }
  let v := if x.link = .down then v else v.say (.spanState p .down)
  let v := (List.finRange 6).foldl (Spans.resetContext g sd) v
  (List.finRange 6).foldl (Spans.dropReports g sd) v

/-- SPRST (R93). -/
def sprst (n : Nat) (s : State) : Answer :=
  match index 8 n with
  | none => refuse .range s
  | some p =>
    match servedBy s.lal p with
    | none => refuse .state s
    | some (g, sd) => okWith (s.withSpans (s.spans.resetPort p g sd)) []

/-- The meaning of GRPSET. -/
def execGrpset (p : TrunkId) (tag : Nat) (a : GrpsetArgs) (s : State) : Host.Outcome State Fault Refusal :=
  requestCommand p tag (requestCode (.grpset a)) (grpset a) s

/-- The meaning of SPRST. -/
def execSprst (p : TrunkId) (tag n : Nat) (s : State) : Host.Outcome State Fault Refusal :=
  requestCommand p tag (requestCode (.sprst n)) (sprst n) s

end Sys2Proof.Machine
end

