-- ==== Sys2Proof/Machine/Combiner.lean ====
section
/-! DEFINITION. Uplink combining and talk-through history (chapter 5): squelch gates, sums, combined and uplink blocks, and the opening and closing of window slots. -/
namespace Sys2Proof.Machine

/-! ### Squelch gates (R100 to R102) -/

/-- A gate in HANG whose count runs out is CLOSED (R102). -/
def Gate.expire (_g : Gate) : Gate := ⟨.closed, 0⟩

/-- The gate's move on power `p` with open threshold `o`, close threshold `k` and hang `h` (Table 5-3). -/
def Gate.update (g : Gate) (p o k h : Nat) : Gate :=
  match g.state with
  | .closed => if o ≤ p then ⟨.opened, 0⟩ else ⟨.closed, 0⟩
  | .opened => if k ≤ p then ⟨.opened, 0⟩ else if h = 0 then ⟨.closed, 0⟩ else ⟨.hang, h⟩
  | .hang => if k ≤ p then ⟨.opened, 0⟩ else if g.hang ≤ 1 then g.expire else ⟨.hang, g.hang - 1⟩

/-- A gate whose remote is summed: OPEN or HANG (R104). -/
def Gate.passes (g : Gate) : Bool := g.state ≠ .closed

/-- The inputs of the combiner's part of a close (Table 5-2): carriers and lane table as of the slot event, remotes and
window as the Span Interface's part of the same close leaves them. -/
structure CloseInput where
  hfn : FrameNo
  ctb : Table Carrier 64
  lanes : Table Group 8
  remotes : Table (Table Remote 6) 8
  window : List WindowSlot
  deriving DecidableEq, Repr

/-- The section handed on for a remote: the one filed under its feed side (R84). -/
def CloseInput.handed (i : CloseInput) (g : GroupId) (k : Pos) : Option Filed :=
  filedFor i.window i.hfn g k ((i.remotes.get g).get k).feed

/-- The owner of a lane that is LIVE and whose owner has an uplink destination (R101). -/
def CloseInput.summedOwner (i : CloseInput) (g : GroupId) (l : LaneId) : Option CarrierId :=
  let x := (i.lanes.get g).lanes.get l
  match x.state, x.owner with
  | .live, some c => if (i.ctb.get c).fields.ulDest.isSome then some c else none
  | _, _ => none

/-- The gate of (group, lane, position) after the close (R101, R102). -/
def CloseInput.gate (i : CloseInput) (gates : Gates) (g : GroupId) (l : LaneId) (k : Pos) : Gate :=
  let old := ((gates.get g).get l).get k
  let cfg := (i.lanes.get g).config
  match i.summedOwner g l with
  | none => old
  | some c =>
    if !cfg.configured k then old
    else if !((i.remotes.get g).get k).inService then .default
    else
      let f := (i.ctb.get c).fields
      let p := match i.handed g k with
        | some x => power (x.blocks.get l)
        | none => 0
      old.update p f.sqOpen f.sqClose f.hang

/-- Every gate after the close. -/
def CloseInput.gates (i : CloseInput) (gates : Gates) : Gates :=
  .make fun g => .make fun l => .make fun k => i.gate gates g l k

/-! ### Sums (R104 to R107) -/

/-- The lane of group `g` that carrier `c` owns LIVE. -/
def CloseInput.liveLane (i : CloseInput) (g : GroupId) (c : CarrierId) : Option LaneId :=
  (List.finRange 32).find? fun l =>
    ((i.lanes.get g).lanes.get l).state = .live && ((i.lanes.get g).lanes.get l).owner = some c

/-- The contribution of one remote to a lane, given the gates after the close (R104). -/
def CloseInput.contribution (i : CloseInput) (gates : Gates) (g : GroupId) (l : LaneId) (k : Pos) : Option LaneBlock :=
  if (i.lanes.get g).config.configured k && ((i.remotes.get g).get k).inService && (((gates.get g).get l).get k).passes then
    (i.handed g k).map fun x => x.blocks.get l
  else none

/-- The contributions to the sum of carrier `c`, groups and positions ascending (R104). -/
def CloseInput.contributions (i : CloseInput) (gates : Gates) (c : CarrierId) : List LaneBlock :=
  (List.finRange 8).flatMap fun g =>
    match i.liveLane g c with
    | some l => (List.finRange 6).filterMap fun k => i.contribution gates g l k
    | none => []

/-- The exact sum of contributions, I and Q of sample `k` (R105). -/
def sumOf (bs : List LaneBlock) (k : Fin 24) : Int × Int :=
  ((bs.map fun b => (b.get k).i.toInt).sum, (bs.map fun b => (b.get k).q.toInt).sum)

/-- The combined block K (R106). -/
def combinedBlock (bs : List LaneBlock) : LaneBlock := (saturateBlock (sumOf bs)).1

/-- The uplink block U with the number of components saturation changed (R107). -/
def uplinkBlock (bs : List LaneBlock) (gain : Nat) : LaneBlock × Nat :=
  saturateBlock fun k => (applyGain (sumOf bs k).1 gain, applyGain (sumOf bs k).2 gain)

/-- The sum formed for a carrier at a close. -/
structure CarrierSum where
  carrier : CarrierId
  dest : TrunkLane
  combined : LaneBlock
  uplink : LaneBlock
  contributions : Nat
  saturated : Nat
  deriving DecidableEq, Repr

/-- The sum of carrier `c`: formed where it is ACTIVE with an uplink destination (R104). -/
def CloseInput.sum (i : CloseInput) (gates : Gates) (c : CarrierId) : Option CarrierSum :=
  let r := i.ctb.get c
  match r.state, r.fields.ulDest with
  | .active, some t =>
    let bs := i.contributions gates c
    let u := uplinkBlock bs r.fields.ulGain
    some ⟨c, t, combinedBlock bs, u.1, bs.length, u.2⟩
  | _, _ => none

/-- The sums formed at the close, carriers ascending. -/
def CloseInput.sums (i : CloseInput) (gates : Gates) : List CarrierSum := (List.finRange 64).filterMap (i.sum gates)

/-- A talk-through history after the close of slot `h`: the new entry, and no entry outside h-4..h (R109). -/
def closeHistory (h : FrameNo) (old : List HistoryEntry) (new : Option LaneBlock) : List HistoryEntry :=
  (old ++ (new.map fun b => (⟨h, b⟩ : HistoryEntry)).toList).filter fun e => (h - e.hfn).toNat ≤ 4

/-- The uplink lane blocks of a trunk frame: each lane the U whose destination it is, else zeros (R108). -/
def uplinkLanes (sums : List CarrierSum) : Table LaneBlock 48 :=
  .make fun t => match sums.find? fun x => x.dest = t with
    | some x => x.uplink
    | none => zeroBlock

/-- The combiner after its part of the close (R101 to R109). -/
def Combiner.afterClose (u : Combiner) (i : CloseInput) : Combiner :=
  let gates := i.gates u.gates
  { u with
    gates := gates
    history := .make fun c => closeHistory i.hfn (u.history.get c) ((i.sum gates c).map (·.combined))
    lastClose := .make fun c => match i.sum gates c with
      | some x => some ⟨i.hfn, x.contributions, x.saturated⟩
      | none => u.lastClose.get c
    lastClosed := some i.hfn
    uplink := uplinkLanes (i.sums gates) }

/-- The CLIP notices of a close (R107); that the carriers go in ascending number is the model's order (entry 3). -/
def clipNotices (sums : List CarrierSum) : List Notice :=
  sums.filterMap fun x => if x.saturated = 0 then none else some (.clipTrunk x.dest x.carrier x.saturated)

/-- The combine window's part of the slot event of `n`: slot n-4 closes if it is open, and slot n opens empty (R97).
`lanes` is the lane table of HFN n, `ctb` the carrier table as stored at the slot event. -/
def closeSlot (n : FrameNo) (ctb : Table Carrier 64) (lanes : Table Group 8) (s : State) : State :=
  let h := n - 4
  if (openSlots s.ucb.window).contains h then
    let v := s.spans.close lanes h
    let t := s.withSpans v
    let i : CloseInput := ⟨h, ctb, lanes, v.remotes, v.window⟩
    let u := t.ucb.afterClose i
    { t with
      ucb := { u with window := u.window.filter (fun x => x.hfn != h) ++ [⟨n, []⟩] }
      mga := t.mga.raiseAll (clipNotices (i.sums u.gates)) }
  else { s with ucb := { s.ucb with window := s.ucb.window ++ [⟨n, []⟩], uplink := .fill zeroBlock } }

/-- The combined block of carrier `c` for HFN `n`, or zeros where its history holds none (R52, R110). -/
def Combiner.talkBlock (u : Combiner) (c : CarrierId) (n : FrameNo) : LaneBlock :=
  match (u.history.get c).find? fun e => e.hfn = n with
  | some e => e.block
  | none => zeroBlock

/-- HANG_EXPIRY: a gate in HANG whose count runs out is CLOSED (R102; entry 1). -/
def hangExpiry (g : GroupId) (l : LaneId) (k : Pos) (s : State) : State :=
  let x := ((s.ucb.gates.get g).get l).get k
  if x.state = .hang ∧ x.hang ≤ 1 then
    { s with ucb := { s.ucb with gates := s.ucb.gates.edit g fun t => t.edit l fun q => q.edit k Gate.expire } }
  else s

/-- The meaning of HANG_EXPIRY. -/
def execHangExpiry (g : GroupId) (l : LaneId) (k : Pos) (s : State) : Host.Outcome State Fault Refusal :=
  eventCommand (hangExpiry g l k) s

end Sys2Proof.Machine
end

