-- ==== Sys2Proof/Machine/Mixer.lean ====
section
/-! DEFINITION. Downlink mixing and level control (chapter 3): the five stages of a lane block, powers, the envelope, the derated ceiling, the limiter, and the over-budget and protected-over reports. -/
namespace Sys2Proof.Machine

/-- The inputs of the mixer's work of slot `hfn` (Table 3-1): the hub as it stood at the slot event, the lane tables of the
HFN with the break-in marks, the active frame, and the blocks and fade values of the players. -/
structure MixInput where
  hfn : FrameNo
  pre : State
  lanes : Table Group 8
  active : Option (List Byte)
  play0 : Option PlayerWork
  play1 : Option PlayerWork
  deriving DecidableEq, Repr

/-- The work of a player in the slot. -/
def MixInput.play (i : MixInput) : PlayerId → Option PlayerWork
  | .bp0 => i.play0
  | .bp1 => i.play1

/-! ### The stages of a lane block (R49 to R57) -/

/-- Source selection (R50). -/
def MixInput.source (i : MixInput) (c : CarrierId) : LaneBlock :=
  if talkThrough i.pre c then i.pre.ucb.talkBlock c (i.hfn - 5)
  else match (i.pre.ctb.get c).fields.dlSource, i.active with
    | some t, some f => frameLane f t
    | _, _ => zeroBlock

/-- The cross-fade of one component (R53). -/
def crossFade (p v : Int) (f : Nat) : Int := nearest (p * (4096 - f) + v * f) 4096

/-- The components of sample `k` after the cross-fade: the source alone where no player produced a block (R53). -/
def faded (p : LaneBlock) (w : Option PlayerWork) (k : Fin 24) : Int × Int :=
  match w with
  | some x => (crossFade (p.get k).i.toInt (x.block.get k).i.toInt x.fade, crossFade (p.get k).q.toInt (x.block.get k).q.toInt x.fade)
  | none => ((p.get k).i.toInt, (p.get k).q.toInt)

/-- The lane's gain: base times trim, capped (R54). -/
def laneGain (base trim : Nat) : Nat := min 65535 (applyGain base trim).toNat

/-- The base gain of carrier `c` (R54). -/
def MixInput.baseGain (i : MixInput) (c : CarrierId) : Nat :=
  if talkThrough i.pre c then (i.pre.ctb.get c).fields.talkGain else (i.pre.ctb.get c).fields.dlGain

/-- The trim of the placement of `c` in `g` (R54). -/
def MixInput.trim (i : MixInput) (c : CarrierId) (g : GroupId) : Nat :=
  match (i.pre.ctb.get c).placements.get g with
  | some p => p.trim
  | none => 4096

/-- Whether a LIVE lane owned by `c` is protected (R55). -/
def MixInput.protects (i : MixInput) (x : Lane) (c : CarrierId) : Bool :=
  (i.pre.ctb.get c).fields.kind = .rescue || (x.player.isSome && i.pre.ict.row.protectBreakIn)

/-- The effective gain (R56). -/
def effectiveGain (isProtected : Bool) (g factor : Nat) : Nat := if isProtected then g else (applyGain g factor).toNat

/-- A lane as mixed: its block, how many components saturation changed, its owner where LIVE, and its protection. -/
structure MixedLane where
  block : LaneBlock
  clipped : Nat
  owner : Option CarrierId
  isProtected : Bool
  deriving DecidableEq, Repr

/-- A FREE or GUARD lane: zeros, power 0 (R49). -/
def MixedLane.silent : MixedLane := ⟨zeroBlock, 0, none, false⟩

/-- A LIVE lane owned by `c`, built in five stages (R49). -/
def MixInput.liveLane (i : MixInput) (g : GroupId) (x : Lane) (c : CarrierId) : MixedLane :=
  let p := i.source c
  let w := x.player.bind i.play
  let prot := i.protects x c
  let gain := effectiveGain prot (laneGain (i.baseGain c) (i.trim c g)) (i.pre.dmx.get g).factor
  let y := saturateBlock fun k => (applyGain (faded p w k).1 gain, applyGain (faded p w k).2 gain)
  ⟨y.1, y.2, some c, prot⟩

/-- One lane of HFN n (R49). -/
def MixInput.lane (i : MixInput) (g : GroupId) (l : LaneId) : MixedLane :=
  let x := (i.lanes.get g).lanes.get l
  match x.state, x.owner with
  | .live, some c => i.liveLane g x c
  | _, _ => .silent

/-- The 32 lanes of a group. -/
def MixInput.group (i : MixInput) (g : GroupId) : Table MixedLane 32 := .make (i.lane g)

/-! ### Powers, envelope and ceiling (R60 to R62) -/

/-- The group power P (R60). -/
def groupPower (m : Table MixedLane 32) : Nat := holdPower ((m.rows.toList.map fun x => power x.block).sum)

/-- The protected power Pp (R60). -/
def protectedPower (m : Table MixedLane 32) : Nat :=
  holdPower (((m.rows.toList.filter (·.isProtected)).map fun x => power x.block).sum)

/-- The envelope after a slot of power `p` (R61). -/
def envelopeAfter (e p : Nat) : Nat := if e ≤ p then e + (p - e) / 16 else e - (e - p) / 16

/-- The headroom a remote counts with in the derating: in service and not PA_OFF (R62). -/
def Remote.derates (r : Remote) : Nat :=
  if r.inService ∧ r.radiator ≠ some .paOff then (r.headroom.map BitVec.toNat).getD 0 else 0

/-- The largest headroom code of a group's remotes (R62). -/
def derating (t : Table Remote 6) : Nat := (t.rows.toList.map Remote.derates).foldl max 0

/-- The effective ceiling (R62). -/
def effectiveCeiling (ceiling d : Nat) : Nat := ceiling * (4 - d) / 4

/-! ### The limiter (R63 to R66) -/

/-- The limiter factor after an update (R63). -/
def factorAfter (floor factor e c : Nat) : Nat :=
  if c < e then max floor (factor - (factor + 31) / 32)
  else if e < c - c / 8 then min 4096 (factor + factor / 64 + 1)
  else factor

/-- The over-budget episode and its pinned run after an update (R65). That the run of a REPORTED episode reads 64 from the first
pinned slot after a break on is the model's reading (entry 31). -/
def episodeAfter (ep : Episode) (run : Nat) (above pinned : Bool) : Episode × Nat :=
  match above, pinned, ep with
  | false, _, _ => (.quiet, 0)
  | true, true, .quiet => (.over, 1)
  | true, false, .quiet => (.over, 0)
  | true, true, .over => if 64 ≤ run + 1 then (.reported, 64) else (.over, run + 1)
  | true, false, .over => (.over, 0)
  | true, true, .reported => (.reported, 64)
  | true, false, .reported => (.reported, 0)

/-- The limiter of a group after its update of slot `n`, with the notices raised (R61 to R66). That OVER_BUDGET joins the queue
before PROTECTED_OVER is the model's (entry 3). -/
def Limiter.update (x : Limiter) (n : FrameNo) (g : GroupId) (cfg : GroupConfig) (m : Table MixedLane 32) (d : Nat) :
    Limiter × List Notice :=
  let p := groupPower m
  let pp := protectedPower m
  let e := envelopeAfter x.envelope p
  let c := effectiveCeiling cfg.ceiling d
  let l := factorAfter cfg.floor x.factor e c
  let ep := episodeAfter x.episode x.run (decide (c < e)) (decide (l = cfg.floor))
  let above := decide (c < pp)
  ({ factor := l, envelope := e, episode := ep.1, run := ep.2, protectedOver := above, last := some ⟨n, p, pp, d, c⟩ },
   (if ep.1 = .reported ∧ x.episode ≠ .reported then [.overBudget g e c pp] else []) ++
   (if above ∧ !x.protectedOver then [.protectedOver g pp c] else []))

/-- The CLIP notices of a group (R58). That several join in ascending lane number is the model's (entry 3). -/
def laneClips (g : GroupId) (m : Table MixedLane 32) : List Notice :=
  (List.finRange 32).filterMap fun l =>
    let x := m.get l
    match x.owner with
    | some c => if x.clipped = 0 then none else some (.clipLane g l c x.clipped)
    | none => none

/-- The limiter update of group `g` in the slot; an UNUSED group makes none (R48). -/
def MixInput.limit (i : MixInput) (g : GroupId) : Limiter × List Notice :=
  let cfg := configOf i.pre.lal g
  let x := i.pre.dmx.get g
  if cfg.form = .unused then (x, [])
  else x.update i.hfn g cfg (i.group g) (derating (i.pre.sif.remotes.get g))

/-- The CLIP notices of group `g` in the slot; an UNUSED group builds no blocks (R48). -/
def MixInput.clips (i : MixInput) (g : GroupId) : List Notice :=
  if (configOf i.pre.lal g).form = .unused then [] else laneClips g (i.group g)

/-- The mixer's work in the slot (R47): every block of HFN n built, with its CLIPs raised, and then every limiter updated, with
its notices; groups ascending (entry 3). -/
def mixerWork (i : MixInput) (s : State) : State :=
  { s with
    dmx := .make fun g => (i.limit g).1
    mga := s.mga.raiseAll (((List.finRange 8).flatMap i.clips) ++ (List.finRange 8).flatMap fun g => (i.limit g).2) }

/-- OVER_BUDGET: the pinned run of an episode reaches 64, the episode is REPORTED and the notice raised (R65; entry 1). The row
is due where the group has a form (R48), the run stands at 63, and the envelope and the factor stand as the table of R65 asks
under the ceiling, the derating and the floor that the next update would use. -/
def overBudget (g : GroupId) (s : State) : State :=
  let x := s.dmx.get g
  let cfg := configOf s.lal g
  let c := effectiveCeiling cfg.ceiling (derating (s.sif.remotes.get g))
  if cfg.form ≠ .unused ∧ x.episode = .over ∧ 63 ≤ x.run ∧ c < x.envelope ∧ x.factor = cfg.floor then
    let pp := match x.last with
      | some u => u.protPower
      | none => 0
    ({ s with dmx := s.dmx.put g { x with episode := .reported, run := 64 } }).raise (.overBudget g x.envelope c pp)
  else s

/-- The meaning of OVER_BUDGET. -/
def execOverBudget (g : GroupId) (s : State) : Host.Outcome State Fault Refusal := eventCommand (overBudget g) s

end Sys2Proof.Machine
end

