-- ==== Sys2Proof/Machine/Incident.lean ====
section
/-! DEFINITION. The incident controller (chapter 9): the line sample, INCSET, INCCLR, PROFSET, and the INCIDENT event with the blocks that act on it. -/
namespace Sys2Proof.Machine

/-- The INCIDENT event (R185): its notice, then the lane allocator in every served group (R40), then the break-in unit where
the announce mask has changed (R145). `mask` is the announce mask before the event; the rest stands as after it. -/
def incidentEvent (cause : IncidentCause) (mask : Nat) (s : State) : State :=
  let i := s.ict
  let t := s.raise (.incident i.effective i.latched i.commanded i.lineLevel cause)
  let t := t.withAlloc (t.alloc.incident i.row)
  t.withBku (t.bkuView.maskChange mask i.row.announceMask)

/-- The controller's state changed; INCIDENT follows where the effective level has changed (R185). -/
def changeLevels (cause : IncidentCause) (i : Incident) (s : State) : State :=
  let t := { s with ict := i }
  if i.effective = s.ict.effective then t else incidentEvent cause s.ict.row.announceMask t

/-- The controller after a line sample (R182). -/
def Incident.sample (i : Incident) (n : FrameNo) (line : Bool) : Incident :=
  if line then
    let run := min 3 (i.run + 1)
    { i with asserted := true, run := run, sampleHfn := some n, latched := if run = 3 then max i.latched i.lineLevel else i.latched }
  else { i with asserted := false, run := 0, sampleHfn := some n }

/-- The line sample of slot `n` (R182). -/
def lineSample (n : FrameNo) (line : Bool) (s : State) : State := changeLevels .line (s.ict.sample n line) s

/-- A level that a number names, held at 3 (R184). -/
def levelOf (n : Nat) : Level := if h : n < 4 then ⟨n, h⟩ else 3

/-- INCSET (R184). -/
def incset (n : Nat) (s : State) : Answer :=
  let t := changeLevels .command { s.ict with commanded := levelOf n } s
  okWith t (changedFields [(0, decide (3 < n))] ++ be 1 t.ict.effective.val)

/-- INCCLR (R183); that the response to one refused has an empty body is the model's (entry 32). -/
def incclr (s : State) : Answer :=
  if s.ict.asserted then refuse .state s
  else
    let t := changeLevels .command { s.ict with latched := 0 } s
    okWith t (be 1 t.ict.effective.val)

/-- The line level as stored (R187). -/
def clampLineLevel (n : Nat) : Level := if n = 0 then 1 else levelOf n

/-- PROFSET (R187). -/
def profset (a : ProfsetArgs) (s : State) : Answer :=
  match index 4 a.row, codeBool a.talkAuto, codeBool a.broadcastPreempt, codeBool a.protectBreakIn with
  | some row, some talk, some pre, some prot =>
    let r : ProfileRow := ⟨min a.announceMask 15, talk, pre, min a.shedRank 16, prot⟩
    let line := clampLineLevel a.lineLevel
    let t := { s with ict := { s.ict with profile := s.ict.profile.put row r, lineLevel := line } }
    let t := if row = s.ict.effective then incidentEvent .profile s.ict.row.announceMask t else t
    okWith t (changedFields [(1, r.announceMask != a.announceMask), (4, r.shedRank != a.shedRank), (6, line.val != a.lineLevel)])
  | _, _, _, _ => refuse .range s

/-- The meaning of INCSET. -/
def execIncset (p : TrunkId) (tag n : Nat) (s : State) : Host.Outcome State Fault Refusal :=
  requestCommand p tag (requestCode (.incset n)) (incset n) s

/-- The meaning of INCCLR. -/
def execIncclr (p : TrunkId) (tag : Nat) (s : State) : Host.Outcome State Fault Refusal :=
  requestCommand p tag (requestCode .incclr) incclr s

/-- The meaning of PROFSET. -/
def execProfset (p : TrunkId) (tag : Nat) (a : ProfsetArgs) (s : State) : Host.Outcome State Fault Refusal :=
  requestCommand p tag (requestCode (.profset a)) (profset a) s

end Sys2Proof.Machine
end

