-- ==== Sys2Proof/Machine/Store.lean ====
section
/-! DEFINITION. The announcement store at work (chapter 8): loading and committing pages, the write unit and its holder, erasing and guarding blocks, the message directory, and the settings save. -/
namespace Sys2Proof.Machine

/-! ### Loading a page (R165, R166) -/

/-- A page of samples all -1 (R165). -/
def blankPage : PageContent := .fill 0xFF

/-- Samples written into a page at an offset and the positions after it (R166). -/
def writeSamples (c : PageContent) (off : Nat) (bs : List Byte) : PageContent :=
  .make fun i => if off ≤ i.val then (bs[i.val - off]?).getD (c.get i) else c.get i

/-- PGOPEN (R165). -/
def pgopen (n : Nat) (s : State) : Answer :=
  match index 2048 n with
  | none => refuse .range s
  | some p => okWith { s with ast := { s.ast with buffer := some ⟨p, blankPage⟩ } } []

/-- PGDATA (R166). -/
def pgdata (off : Nat) (bs : List Byte) (s : State) : Answer :=
  if 511 < off ∨ bs.length = 0 ∨ 32 < bs.length then refuse .range s
  else match s.ast.buffer with
    | none => refuse .state s
    | some l =>
      if 512 < off + bs.length then refuse .range s
      else okWith { s with ast := { s.ast with buffer := some { l with content := writeSamples l.content off bs } } } []

/-! ### Committing (R167, R168) -/

/-- A block record changed. -/
def Store.editBlock (t : Store) (b : BlockId) (f : StoreBlock → StoreBlock) : Store := { t with blocks := t.blocks.edit b f }

/-- Every page of a block in one state. -/
def Store.setBlockPages (t : Store) (b : BlockId) (st : PageState) : Store :=
  t.editBlock b fun x => { x with pages := .fill st }

/-- The write unit begins to program a page (R168, R169). -/
def Store.program (t : Store) (l : PageLoad) : Store := { t.setPage l.page .programming with unit := .programming l }

/-- Block `b` is being erased by the write unit (R168). -/
def Store.erasing (t : Store) (b : BlockId) : Bool :=
  match t.unit with
  | .erasing c => c = b
  | _ => false

/-- The block holds the PROGRAMMING page. -/
def Store.programmingIn (t : Store) (b : BlockId) : Bool :=
  match t.unit with
  | .programming l => blockOf l.page = b
  | _ => false

/-- The block holds the held page. -/
def Store.heldIn (t : Store) (b : BlockId) : Bool := t.holder.any fun l => blockOf l.page == b

/-- The checks of R168 from the second on. -/
def Store.commitRefusal (t : Store) (p : PageId) : Option Status :=
  let b := t.blocks.get (blockOf p)
  if b.guard.barsWrite then some .barred
  else if t.erasing (blockOf p) then some .busy
  else if (indexOf p).val ≠ b.writePointer then some .order
  else if t.unit ≠ .idle ∧ t.holder.isSome then some .busy
  else none

/-- An accepted commit: counted in the write pointer, programmed at once or held, and the buffer closed (R168). -/
def Store.commit (t : Store) (l : PageLoad) : Store :=
  let u := { (t.editBlock (blockOf l.page) fun b => { b with writePointer := b.writePointer + 1 }) with buffer := none }
  if t.unit = .idle then u.program l else { u with holder := some l }

/-- PGCOMMIT (R168). -/
def pgcommit (s : State) : Answer :=
  match s.ast.buffer with
  | none => refuse .state s
  | some l =>
    match s.ast.commitRefusal l.page with
    | some st => refuse st s
    | none => begun { s with ast := s.ast.commit l }

/-! ### Completions (R169, R170, R172) -/

/-- A result enters the history (R170). -/
def Store.record (t : Store) (h : HistoryResult) : Store := { t with previous := t.last, last := some h }

/-- The write unit takes the held page, or becomes IDLE (R169, R172). -/
def Store.advance (t : Store) : Store :=
  match t.holder with
  | some q => ({ t with holder := none } : Store).program q
  | none => { t with unit := .idle }

/-- What a program completion leaves of its page (R169). -/
def Store.programEnd (t : Store) (l : PageLoad) : StoreResult → Store
  | .pass => { t.setPage l.page .programmed with memory := t.memory.writeRun (pageBase l.page) l.content.rows.toList }
  | .fail => t.setPage l.page .failed

/-- STORE_PROGRAM_COMPLETION (R169); it can come only while the unit is PROGRAMMING (R167; entry 16). -/
def storeProgramCompletion (r : StoreResult) (s : State) : State :=
  match s.ast.unit with
  | .programming l =>
    ({ s with ast := ((s.ast.programEnd l r).record (.program l.page r)).advance }).raise
      (.storeProgramDone (blockOf l.page) l.page r)
  | _ => s

/-- A guard after a passing erase (Table 8-2). -/
def GuardState.erased : GuardState → GuardState
  | .writeBarred => .opened
  | g => g

/-- An erase count with one erase more, held at 65535 (R164). -/
def eraseCounted (n : Nat) : Nat := min 65535 (n + 1)

/-- What an erase completion leaves of its block (R172). -/
def Store.eraseEnd (t : Store) (b : BlockId) : StoreResult → Store
  | .pass => t.editBlock b fun x =>
    { guard := x.guard.erased, writePointer := 0, eraseCount := eraseCounted x.eraseCount, pages := .fill .erased }
  | .fail => t.editBlock b fun x => { x with writePointer := 64, eraseCount := eraseCounted x.eraseCount, pages := .fill .failed }

/-- STORE_ERASE_COMPLETION (R172); it can come only while the unit is ERASING (R167; entry 16). -/
def storeEraseCompletion (r : StoreResult) (s : State) : State :=
  match s.ast.unit with
  | .erasing b =>
    ({ s with ast := ((s.ast.eraseEnd b r).record (.erase b r)).advance }).raise (.storeEraseDone b r)
  | _ => s

/-- The meaning of STORE_PROGRAM_COMPLETION. -/
def execStoreProgramCompletion (r : StoreResult) (s : State) : Host.Outcome State Fault Refusal :=
  eventCommand (storeProgramCompletion r) s

/-- The meaning of STORE_ERASE_COMPLETION. -/
def execStoreEraseCompletion (r : StoreResult) (s : State) : Host.Outcome State Fault Refusal :=
  eventCommand (storeEraseCompletion r) s

/-! ### Erasing and guarding (R171, R173) -/

/-- The checks of R171 from the second on. -/
def Store.eraseRefusal (t : Store) (b : BlockId) : Option Status :=
  if (t.blocks.get b).guard.barsErase then some .barred
  else if t.blockInUse b then some .inUse
  else if t.unit ≠ .idle ∨ t.holder.isSome then some .busy
  else none

/-- An erase begun: every page of the block ERASING, its contents gone (R171; entry 8). -/
def Store.beginErase (t : Store) (b : BlockId) : Store :=
  { t.setBlockPages b .erasing with unit := .erasing b, memory := t.memory.clear (32768 * b.val) (32768 * (b.val + 1)) }

/-- BLKERASE (R171). -/
def blkerase (n : Nat) (s : State) : Answer :=
  match index 32 n with
  | none => refuse .range s
  | some b =>
    match s.ast.eraseRefusal b with
    | some st => refuse st s
    | none => begun { s with ast := s.ast.beginErase b }

/-- A guard after a bar-erase (Table 8-2). -/
def GuardState.raiseErase : GuardState → GuardState
  | .opened => .eraseBarred
  | .writeBarred => .barred
  | g => g

/-- A guard after a bar-write that is not refused (Table 8-2). -/
def GuardState.raiseWrite : GuardState → GuardState
  | .opened => .writeBarred
  | .eraseBarred => .barred
  | g => g

/-- BLKGUARD (R173). -/
def blkguard (n bar : Nat) (s : State) : Answer :=
  match index 32 n, codeBar bar with
  | some b, some .erase => okWith { s with ast := s.ast.editBlock b fun x => { x with guard := x.guard.raiseErase } } []
  | some b, some .write =>
    if (s.ast.blocks.get b).guard.barsWrite then okWith s []
    else if s.ast.programmingIn b || s.ast.heldIn b || s.ast.erasing b then refuse .busy s
    else okWith { s with ast := s.ast.editBlock b fun x => { x with guard := x.guard.raiseWrite } } []
  | _, _ => refuse .range s

/-! ### The message directory (R175, R176) -/

/-- The checks of R175. -/
def Store.defineRefusal (t : Store) (a : MsgdefArgs) : Option Status :=
  match index 48 a.message with
  | none => some .range
  | some m =>
    if 2047 < a.first ∨ a.count = 0 ∨ 256 < a.count then some .range
    else if (t.messages.get m).isSome then some .inUse
    else if 2048 < a.first + a.count then some .range
    else if !t.runProgrammed ⟨a.first, a.count, a.gain⟩ then some .state
    else none

/-- MSGDEF (R175). -/
def msgdef (a : MsgdefArgs) (s : State) : Answer :=
  match index 48 a.message, s.ast.defineRefusal a with
  | some m, none => okWith { s with ast := { s.ast with messages := s.ast.messages.put m (some ⟨a.first, a.count, a.gain⟩) } } []
  | _, some st => refuse st s
  | none, none => refuse .range s

/-- How many held requests name a message (R176, R179). -/
def namedBy (b : BreakIn) (m : MessageId) : Nat := (b.held.filter fun r => r.message = .stored m).length

/-- MSGCLR (R176). -/
def msgclr (n : Nat) (s : State) : Answer :=
  match index 48 n with
  | none => refuse .range s
  | some m =>
    if namedBy s.bku m ≠ 0 then refuse .inUse s
    else okWith { s with ast := { s.ast with messages := s.ast.messages.put m none } } []

/-! ### The settings area (R177, R178) -/

/-- A placement without its state (R177). -/
def Placement.bare (p : Placement) : Placement := { p with state := none }

/-- The placement records of a carrier, their states dropped. -/
def barePlacements (t : Table (Option Placement) 8) : Table (Option Placement) 8 := .make fun g => (t.get g).map Placement.bare

/-- A carrier as saved: one ACTIVE is saved DEFINED with start-active set (R177). -/
def Carrier.saved (c : Carrier) : Carrier :=
  { state := if c.state = .free then .free else .defined
    fields := if c.state = .active then { c.fields with startActive := true } else c.fields
    placements := barePlacements c.placements }

/-- The snapshot taken from the state as it stands (R177). -/
def State.snapshot (s : State) : Snapshot where
  carriers := .make fun c => (s.ctb.get c).saved
  groups := .make fun g => (s.lal.get g).config
  profile := s.ict.profile
  lineLevel := s.ict.lineLevel
  params := s.bku.params
  holdLimit := s.fps.holdLimit
  trim := s.fps.trim

/-- SAVE (R177). -/
def save (s : State) : Answer :=
  if s.ast.saving.isSome then refuse .busy s
  else begun { s with ast := { s.ast with settings := none, saving := some s.snapshot } }

/-- SETTINGS_SAVE_COMPLETION (R178); it can come only while a save runs (entry 16). -/
def settingsSaveCompletion (r : StoreResult) (s : State) : State :=
  match s.ast.saving with
  | none => s
  | some snap =>
    let area := match r with
      | .pass => some snap
      | .fail => none
    ({ s with ast := { s.ast with settings := area, saving := none } }).raise (.settingsDone r)

/-- The meaning of SETTINGS_SAVE_COMPLETION. -/
def execSettingsSaveCompletion (r : StoreResult) (s : State) : Host.Outcome State Fault Refusal :=
  eventCommand (settingsSaveCompletion r) s

/-! ### The meanings of the requests -/

/-- The meaning of PGOPEN. -/
def execPgopen (p : TrunkId) (tag n : Nat) (s : State) : Host.Outcome State Fault Refusal :=
  requestCommand p tag (requestCode (.pgopen n)) (pgopen n) s

/-- The meaning of PGDATA. -/
def execPgdata (p : TrunkId) (tag off : Nat) (bs : List Byte) (s : State) : Host.Outcome State Fault Refusal :=
  requestCommand p tag (requestCode (.pgdata off bs)) (pgdata off bs) s

/-- The meaning of PGCOMMIT. -/
def execPgcommit (p : TrunkId) (tag : Nat) (s : State) : Host.Outcome State Fault Refusal :=
  requestCommand p tag (requestCode .pgcommit) pgcommit s

/-- The meaning of BLKERASE. -/
def execBlkerase (p : TrunkId) (tag n : Nat) (s : State) : Host.Outcome State Fault Refusal :=
  requestCommand p tag (requestCode (.blkerase n)) (blkerase n) s

/-- The meaning of BLKGUARD. -/
def execBlkguard (p : TrunkId) (tag n bar : Nat) (s : State) : Host.Outcome State Fault Refusal :=
  requestCommand p tag (requestCode (.blkguard n bar)) (blkguard n bar) s

/-- The meaning of MSGDEF. -/
def execMsgdef (p : TrunkId) (tag : Nat) (a : MsgdefArgs) (s : State) : Host.Outcome State Fault Refusal :=
  requestCommand p tag (requestCode (.msgdef a)) (msgdef a) s

/-- The meaning of MSGCLR. -/
def execMsgclr (p : TrunkId) (tag n : Nat) (s : State) : Host.Outcome State Fault Refusal :=
  requestCommand p tag (requestCode (.msgclr n)) (msgclr n) s

/-- The meaning of SAVE. -/
def execSave (p : TrunkId) (tag : Nat) (s : State) : Host.Outcome State Fault Refusal :=
  requestCommand p tag (requestCode .save) save s

end Sys2Proof.Machine
end

