-- ==== Sys2Proof/Machine/Trunk.lean ====
section
/-! DEFINITION. Trunk ports, protection and the frame pacer (chapter 6): arrivals, the consumption of a slot, roles, the reference state, TRKSEL and TIMSET, and the uplink trunk frames (R124, R198). -/
namespace Sys2Proof.Machine

/-- The other trunk port. -/
def otherTrunk : TrunkId → TrunkId
  | .a => .b
  | .b => .a

/-- The record of a port replaced. -/
def TrunkSide.setPort (t : TrunkSide) (p : TrunkId) (x : TrunkPort) : TrunkSide :=
  match p with
  | .a => { t with a := x }
  | .b => { t with b := x }

/-! ### Arrival (R116) -/

/-- A frame received whole joins the FIFO, or is discarded as a slip where the FIFO holds two (R116). -/
def TrunkPort.arrive (p : TrunkPort) (f : List Byte) : TrunkPort :=
  if p.fifo.length < 2 then { p with fifo := p.fifo ++ [f] } else { p with slips := bump p.slips }

/-- TRUNK_FRAME_ARRIVAL (R116). -/
def trunkFrameArrival (p : TrunkId) (f : List Byte) (s : State) : State :=
  { s with tif := s.tif.setPort p ((s.tif.port p).arrive f) }

/-- The meaning of TRUNK_FRAME_ARRIVAL; while the hub is held in reset the frame is discarded (R133). -/
def execTrunkFrameArrival (p : TrunkId) (f : List Byte) (s : State) : Host.Outcome State Fault Refusal :=
  eventCommand (trunkFrameArrival p f) s

/-! ### Consumption (R117 to R119) -/

/-- The verdict of a port at a consumption: a good frame, or a bad frame or miss (Table 6-1). -/
inductive TrunkVerdict where
  | good
  | bad
  deriving DecidableEq, Repr

/-- A port gone DOWN: its runs 0, its last TFN absent (R119). -/
def TrunkPort.goDown (p : TrunkPort) : TrunkPort := { p with link := .down, goodRun := 0, badRun := 0, lastTfn := none }

/-- The link transitions of Table 6-1. The good run of an UP port stands at 16 (entry 15). -/
def TrunkPort.move (p : TrunkPort) (v : TrunkVerdict) : TrunkPort :=
  match p.link, v with
  | .down, .good => { p with link := .acquiring, goodRun := 1 }
  | .down, .bad => p
  | .acquiring, .good =>
    if 16 ≤ p.goodRun + 1 then { p with link := .up, goodRun := 16, badRun := 0 } else { p with goodRun := p.goodRun + 1 }
  | .acquiring, .bad => p.goDown
  | .up, .good => { p with badRun := 0 }
  | .up, .bad => if 8 ≤ p.badRun + 1 then p.goDown else { p with badRun := p.badRun + 1 }

/-- A good frame's TFN compared with the last TFN and kept (R118). -/
def TrunkPort.takeTfn (p : TrunkPort) (t : FrameNo) : TrunkPort :=
  let gap := match p.lastTfn with
    | some x => t != x + 1
    | none => false
  { p with lastTfn := some t, tfnGaps := if gap then bump p.tfnGaps else p.tfnGaps }

/-- The consumption of one port: the port after its link has moved, and the good frame it consumed, if any (R117). -/
def TrunkPort.consume (p : TrunkPort) : TrunkPort × Option (List Byte) :=
  match p.fifo with
  | [] => (({ p with misses := bump p.misses } : TrunkPort).move .bad, none)
  | f :: rest =>
    let q := { p with fifo := rest }
    if trunkFrameGood f then ((({ q with goodFrames := bump q.goodFrames } : TrunkPort).takeTfn (frameTfn f)).move .good, some f)
    else (({ q with checkFaults := bump q.checkFaults } : TrunkPort).move .bad, none)

/-- TRUNK_STATE where the link state changed (R119). -/
def linkNotice (p : TrunkId) (old new : TrunkPort) : List Notice :=
  if new.link = old.link then [] else [.trunkState p new.link]

/-! ### Roles (R120) -/

/-- The port that is ACTIVE after a settlement, given the port that was before it and which ports are UP (R120). -/
def settledActive (before : Option TrunkId) (upA upB : Bool) : Option TrunkId :=
  match before, upA, upB with
  | some .a, true, _ => some .a
  | some .b, _, true => some .b
  | _, true, _ => some .a
  | _, false, true => some .b
  | _, false, false => none

/-- The role of a port: none where it is not UP, else ACTIVE or STANDBY (R120). -/
def roleFor (active : Option TrunkId) (p : TrunkId) (x : TrunkPort) : Role :=
  if x.link ≠ .up then .none else if active = some p then .active else .standby

/-- The roles settled once both ports have moved, with TRUNK_SWITCH where the ACTIVE role passed (R120). -/
def TrunkSide.settle (t : TrunkSide) : TrunkSide × List Notice :=
  let before := t.active
  let act := settledActive before (t.a.link = .up) (t.b.link = .up)
  ({ t with a := { t.a with role := roleFor act .a t.a }, b := { t.b with role := roleFor act .b t.b } },
   match before, act with
   | some p, some q => if p = q then [] else [.trunkSwitch q .loss]
   | _, _ => [])

/-! ### The reference state (R126 to R129) -/

/-- The reference state after a settlement that leaves a port ACTIVE, or none (Table 6-2). -/
def Pacer.settle (p : Pacer) (active : Bool) : Pacer × List Notice :=
  match active, p.ref with
  | true, .locked => (p, [])
  | true, _ => ({ p with ref := .locked, holdCount := 0, heldRate := p.rate }, [.referenceState .locked])
  | false, .locked =>
    let r := if p.holdLimit = 0 then .freeRun else .holdover
    ({ p with ref := r, holdCount := 0 }, [.referenceState r])
  | false, _ => (p, [])

/-- One slot event counted in HOLDOVER; at the limit the reference state becomes FREE_RUN (R128). -/
def Pacer.countHold (p : Pacer) : Pacer × List Notice :=
  if p.ref = .holdover then
    if p.holdLimit ≤ p.holdCount + 1 then ({ p with ref := .freeRun, holdCount := p.holdCount + 1 }, [.referenceState .freeRun])
    else ({ p with holdCount := p.holdCount + 1 }, [])
  else (p, [])

/-- The rate the steering has reached in a slot that began and stays LOCKED, kept as the held rate (R126; entry 9). -/
def Pacer.steer (p : Pacer) (wasLocked : Bool) : Pacer :=
  if wasLocked ∧ p.ref = .locked then
    { p with heldRate := Config.steeredRate p.rateDraws, rateDraws := p.rateDraws + 1 }
  else p

/-- What the consumption of a slot hands over: the good frames of the two ports, and the active frame (R121). The roles that
go with the control cells stand as `settled` in the trunk interface. -/
structure HandOver where
  frameA : Option (List Byte)
  frameB : Option (List Byte)
  active : Option (List Byte)
  deriving DecidableEq, Repr

/-- The consumption of a slot with the holdover count of its slot event, which an expiry takes before the settlement or
after it (R117 to R121, R128, R129). -/
def consumption (expiryFirst : Bool) (s : State) : State × HandOver :=
  let first := if expiryFirst then s.fps.countHold else (s.fps, [])
  let ca := s.tif.a.consume
  let cb := s.tif.b.consume
  let t := ({ s.tif with a := ca.1, b := cb.1 } : TrunkSide).settle
  let ref := first.1.settle t.1.active.isSome
  let last := if !expiryFirst && s.fps.ref = .holdover then ref.1.countHold else (ref.1, [])
  let active := match t.1.active with
    | some .a => ca.2
    | some .b => cb.2
    | none => none
  ({ s with
      tif := { t.1 with settled := t.1.active }
      fps := last.1.steer (s.fps.ref = .locked)
      mga := s.mga.raiseAll (first.2 ++ linkNotice .a s.tif.a ca.1 ++ linkNotice .b s.tif.b cb.1 ++ t.2 ++ ref.2 ++ last.2) },
   ⟨ca.2, cb.2, active⟩)

/-- HOLDOVER_EXPIRY: the holdover count reaches the limit and the reference state becomes FREE_RUN (R128; entry 1). -/
def holdoverExpiry (s : State) : State :=
  if s.fps.ref = .holdover ∧ s.fps.holdLimit ≤ s.fps.holdCount + 1 then
    ({ s with fps := s.fps.countHold.1 }).raiseAll s.fps.countHold.2
  else s

/-- The meaning of HOLDOVER_EXPIRY. -/
def execHoldoverExpiry (s : State) : Host.Outcome State Fault Refusal := eventCommand holdoverExpiry s

/-! ### The uplink trunk frames (R124, R198) -/

/-- The frame of slot `n` for port `p`, once `taken`, the notice of the slot, has been taken for the port ACTIVE as settled by
the consumption (R124, R201). -/
def uplinkFrame (n : FrameNo) (taken : Option SentNotice) (s : State) (p : TrunkId) : UplinkFrame where
  hfn := n
  summary := { s.summary with active := s.tif.settled }
  control := s.mga.response p
  notice := if s.tif.settled = some p then taken else none
  lanes := s.ucb.uplink

/-- Both frames of slot `n` completed (R124, R198, R201). -/
def completeFrames (n : FrameNo) (s : State) : State :=
  let taken := s.mga.takeNotice s.tif.settled
  let t := { s with mga := taken.1 }
  { t with tif := { t.tif with outA := some (uplinkFrame n taken.2 t .a), outB := some (uplinkFrame n taken.2 t .b) } }

/-! ### Requests -/

/-- TRKSEL (R123). -/
def trksel (n : Nat) (s : State) : Answer :=
  match codeTrunk n with
  | none => refuse .range s
  | some p =>
    let x := s.tif.port p
    if x.link ≠ .up then refuse .state s
    else if x.role = .active then okWith s []
    else
      let t := (s.tif.setPort p { x with role := .active }).setPort (otherTrunk p) { s.tif.port (otherTrunk p) with role := .standby }
      okWith (({ s with tif := t }).raise (.trunkSwitch p .select)) []

/-- The trim as stored (R130). -/
def clampTrim (v : Int) : Int := max (-127) (min v 127)

/-- TIMSET (R130). -/
def timset (limit : Nat) (trim : Int) (s : State) : Answer :=
  okWith { s with fps := { s.fps with holdLimit := limit, trim := clampTrim trim } } (changedFields [(1, clampTrim trim != trim)])

/-- The meaning of TRKSEL. -/
def execTrksel (p : TrunkId) (tag n : Nat) (s : State) : Host.Outcome State Fault Refusal :=
  requestCommand p tag (requestCode (.trksel n)) (trksel n) s

/-- The meaning of TIMSET. -/
def execTimset (p : TrunkId) (tag limit : Nat) (trim : Int) (s : State) : Host.Outcome State Fault Refusal :=
  requestCommand p tag (requestCode (.timset limit trim)) (timset limit trim) s

end Sys2Proof.Machine
end

