-- ==== Sys2Proof/Machine/Records.lean ====
section
/-! DEFINITION. Reading state (R196, Tables 10-2 and 11-6): the record each RDREC selector returns, encoded as R210 lays down (entry 13). -/
namespace Sys2Proof.Machine

/-! ### Codes of states, numbered in the order in which their rule lists them (section 11.4) -/

def CarrierState.code : CarrierState → Nat
  | .free => 0
  | .defined => 1
  | .active => 2
def PlacementState.code : PlacementState → Nat
  | .waiting => 0
  | .held => 1
  | .shed => 2
def LaneState.code : LaneState → Nat
  | .free => 0
  | .guard => 1
  | .live => 2
/-- A lane's break-in player: none, BP0, BP1 (R28). -/
def playerField : Option PlayerId → Nat
  | none => 0
  | some .bp0 => 1
  | some .bp1 => 2
def Episode.code : Episode → Nat
  | .quiet => 0
  | .over => 1
  | .reported => 2
def GateState.code : GateState → Nat
  | .closed => 0
  | .opened => 1
  | .hang => 2
def Role.code : Role → Nat
  | .active => 0
  | .standby => 1
  | .none => 2
def PlayerState.code : PlayerState → Nat
  | .idle => 0
  | .fadeIn => 1
  | .playing => 2
  | .gap => 3
  | .fadeOut => 4
/-- END(COMPLETED), END(CANCELLED), END(SOURCE_LOST), REQUEUE (R139). -/
def Intent.code : Intent → Nat
  | .finish o => o.code
  | .requeue => 3
def PageState.code : PageState → Nat
  | .erased => 0
  | .programming => 1
  | .programmed => 2
  | .failed => 3
  | .erasing => 4
def GuardState.code : GuardState → Nat
  | .opened => 0
  | .eraseBarred => 1
  | .writeBarred => 2
  | .barred => 3
def RestartForm.code : RestartForm → Nat
  | .keep => 0
  | .reload => 1

/-! ### Fields -/

/-- A yes or no, one byte. -/
def flag (b : Bool) : List Byte := be 1 (yes b)

/-- A composite field that may be absent: one byte of presence, then `width` bytes, zero where absent (entry 13). -/
def optionalRecord (width : Nat) : Option (List Byte) → List Byte
  | none => be (1 + width) 0
  | some bs => be 1 1 ++ bs

/-- A frame number that may be absent. -/
def optionalHfn (h : Option FrameNo) : List Byte := optionalField 2 (h.map BitVec.toNat)

/-- A list whose length varies: a byte of count, then its entries (R210). -/
def counted (bs : List (List Byte)) : List Byte := be 1 bs.length ++ bs.flatten

/-- What an RDREC finds: the record, or the status it is refused with. -/
inductive Found where
  | record (bytes : List Byte)
  | refused (status : Status)
  deriving DecidableEq, Repr

/-- A named thing found, or RANGE (R195). -/
def found {α : Type} (x : Option α) (f : α → List Byte) : Found :=
  match x with
  | some a => .record (f a)
  | none => .refused .range

/-! ### Carriers, placements, groups and lanes (R5, R17, R45, R67, R113) -/

/-- The carrier record: state, Table 1-2, trims, history, last close, last slot closed. The model's (entry 13): that the trims are
a counted list, ascending by group, of trims alone, and that the last slot closed is a field that may be absent, before the first
close after a reset (R113). -/
def carrierRecord (s : State) (c : CarrierId) : List Byte :=
  let r := s.ctb.get c
  let f := r.fields
  let set := ((List.finRange 8).map fun g => if (r.placements.get g).isSome then 2 ^ g.val else 0).sum
  be 1 r.state.code ++ be 1 f.kind.code ++ be 2 f.rfCode ++ be 1 (trunkLaneCode f.dlSource) ++ be 1 (trunkLaneCode f.ulDest) ++
    be 1 set ++ be 2 f.dlGain ++ be 2 f.ulGain ++ be 4 f.sqOpen ++ be 4 f.sqClose ++ be 2 f.hang ++ be 1 f.rank ++
    be 1 f.talkMode.code ++ be 2 f.talkGain ++ flag f.eligible ++ flag f.startActive ++
    counted ((List.finRange 8).filterMap fun g => (r.placements.get g).map fun p => be 2 p.trim) ++
    counted ((s.ucb.history.get c).map fun e => be 2 e.hfn.toNat) ++
    optionalRecord 4 ((s.ucb.lastClose.get c).map fun x => be 2 x.hfn.toNat ++ be 1 x.contributions ++ be 1 x.saturated) ++
    optionalHfn s.ucb.lastClosed

/-- The placement record (R17): state, trim, lane and lane state where HELD, list position where WAITING. -/
def placementRecord (s : State) (c : CarrierId) (g : GroupId) (p : Placement) : List Byte :=
  let a := s.alloc
  let lane := if p.state = some .held then a.laneOf g c else none
  let place := if p.state = some .waiting then (a.waiting g).findIdx? (· == c) else none
  optionalField 1 (p.state.map PlacementState.code) ++ be 2 p.trim ++ optionalField 1 (lane.map Fin.val) ++
    optionalField 1 (lane.map fun l => (a.lane g l).state.code) ++ optionalField 1 place

/-- How many lanes of a group are in state `st`. -/
def laneCount (x : Group) (st : LaneState) : Nat := ((List.finRange 32).filter fun l => (x.lanes.get l).state = st).length

/-- How many entries of a waiting list are of kind `k`. -/
def waitingCount (s : State) (x : Group) (k : CarrierKind) : Nat :=
  (x.waiting.filter fun c => (s.ctb.get c).fields.kind = k).length

/-- The group record: configuration, lane counts, list counts, limiter state (R45, R67). -/
def groupRecord (s : State) (g : GroupId) : List Byte :=
  let x := s.lal.get g
  let c := x.config
  let m := s.dmx.get g
  be 1 c.form.code ++ be 1 c.remotes ++ be 5 c.ceiling ++ be 2 c.floor ++ be 1 c.guard ++ be 2 c.missLimit ++
    be 1 (laneCount x .free) ++ be 1 (laneCount x .guard) ++ be 1 (laneCount x .live) ++
    be 1 x.waiting.length ++ be 1 (waitingCount s x .rescue) ++ be 1 (waitingCount s x .broadcast) ++
    be 1 (waitingCount s x .mobile) ++
    be 2 m.factor ++ be 5 m.envelope ++ be 1 m.episode.code ++ be 1 m.run ++ flag m.protectedOver ++
    optionalRecord 16 (m.last.map fun u => be 5 u.power ++ be 5 u.protPower ++ be 1 u.derate ++ be 5 u.ceiling) ++
    optionalHfn (m.last.map (·.hfn))

/-- The lane record with its six gates and the last slot closed (R45, R113). That the last is a field that may be absent, before
the first close after a reset, is the model's (entry 13). -/
def laneRecord (s : State) (g : GroupId) (l : LaneId) : List Byte :=
  let x := (s.lal.get g).lanes.get l
  be 1 x.state.code ++ optionalField 1 (x.owner.map Fin.val) ++ be 1 x.guardCount ++ be 1 (playerField x.player) ++
    ((List.finRange 6).flatMap fun k =>
      let q := ((s.ucb.gates.get g).get l).get k
      be 1 q.state.code ++ be 2 q.hang) ++
    optionalHfn s.ucb.lastClosed

/-! ### The span side and the trunk side (R94, R132) -/

/-- The position index that a position number 1..6 names. -/
def posOf (n : Nat) : Option Pos := if n = 0 then none else index 6 (n - 1)

/-- The remote record (R94). -/
def remoteRecord (s : State) (g : GroupId) (k : Pos) : List Byte :=
  let r := (s.sif.remotes.get g).get k
  flag ((configOf s.lal g).configured k) ++ be 1 (Side.code r.feed) ++ flag r.inService ++
    optionalField 1 (r.headroom.map BitVec.toNat) ++ optionalField 1 (r.radiator.map Radiator.code)

/-- The side context record (R94). -/
def contextRecord (s : State) (g : GroupId) (k : Pos) (sd : Side) : List Byte :=
  let c := ((s.sif.remotes.get g).get k).ctx sd
  be 1 c.state.code ++ optionalField 1 (c.reason.map WaitReason.code) ++ be 1 c.expCount.toNat ++ be 2 c.expEcho.toNat ++
    be 2 c.missRun ++ be 4 c.accepted ++ be 4 c.orderFaults ++ be 4 c.late ++ be 4 c.unstarted

/-- The span port record (R94). -/
def spanPortRecord (s : State) (p : SpanId) : List Byte :=
  let x := s.sif.ports.get p
  let served := servedBy s.lal p
  flag served.isSome ++ optionalField 1 (served.map fun v => v.1.val) ++ optionalField 1 (served.map fun v => Side.code v.2) ++
    be 1 x.link.code ++ be 1 x.goodRun ++ be 1 x.badRun ++ be 1 x.quiet ++ be 4 x.goodFrames ++ be 4 x.frameFaults ++
    be 4 x.missedSlots ++ be 4 x.sectionFaults ++ be 4 x.unknownSections

/-- The trunk port record (R132). -/
def trunkPortRecord (s : State) (p : TrunkId) : List Byte :=
  let x := s.tif.port p
  be 1 x.link.code ++ be 1 x.role.code ++ be 1 x.fifo.length ++ be 1 x.goodRun ++ be 1 x.badRun ++ optionalHfn x.lastTfn ++
    be 4 x.goodFrames ++ be 4 x.checkFaults ++ be 4 x.misses ++ be 4 x.slips ++ be 4 x.tfnGaps

/-- The reference record (R132); before the first slot event the HFN is that of the slot to come, 0 (entry 4). That the ACTIVE
port or none is a field that may be absent, and not a code of its own, is the model's (entry 13). -/
def referenceRecord (s : State) : List Byte :=
  be 2 (s.fps.hfn.getD 0).toNat ++ be 1 s.fps.ref.code ++ be 4 s.fps.holdCount ++ be 4 s.fps.holdLimit ++
    be 1 (BitVec.ofInt 8 s.fps.trim).toNat ++ optionalField 1 (s.tif.active.map TrunkId.code)

/-! ### The break-in unit (R159) -/

/-- A held request (R135), 18 bytes. -/
def AnnRequest.bytes (r : AnnRequest) : List Byte :=
  let set : Nat × Nat := match r.carriers with
    | .all => (1, 0)
    | .only x => (0, x.toNat)
  be 1 r.tag ++ be 1 r.message.code ++ be 1 r.priority ++ be 1 r.plays ++ be 2 r.gap ++ be 1 r.zones.toNat ++
    be 1 set.1 ++ be 8 set.2 ++ be 2 r.playsDone

/-- The player record with coverage, the parameters, and the number of requests held (R159). -/
def playerRecord (s : State) (id : PlayerId) : List Byte :=
  let p := s.bku.player id
  let v := s.bku.params
  be 1 p.state.code ++ optionalRecord 18 (p.request.map AnnRequest.bytes) ++ optionalField 1 (p.intent.map Intent.code) ++
    be 2 p.fade ++ be 2 p.phase.toNat ++ be 3 p.progress ++ be 2 p.gapLeft ++ be 2 p.liveMiss ++ be 2 p.covered ++
    be 1 v.deviation ++ be 2 v.amplitude ++ be 2 v.fadeStep ++ be 2 v.liveGain ++ be 1 s.bku.held.length ++
    optionalHfn s.bku.lastWork

/-- The queue position record (R159). -/
def queueRecord (s : State) (n : Nat) : Found :=
  if 15 < n then .refused .range
  else match s.bku.queue[n]? with
    | none => .refused .notFound
    | some r => .record (r.bytes ++ flag (r.priority < s.ict.row.announceMask) ++ be 1 s.bku.queue.length ++
        be 1 s.bku.held.length ++ optionalHfn s.bku.lastWork)

/-! ### The store (R179) -/

/-- How many pages of a block are in state `st`. -/
def pageCount (b : StoreBlock) (st : PageState) : Nat := ((List.finRange 64).filter fun k => b.pages.get k = st).length

/-- The store block record (R179). That its last clause is three yes or no bytes, being erased, holding a PROGRAMMING page and
holding the held page, and not one, is the model's (entry 13). -/
def storeBlockRecord (s : State) (b : BlockId) : List Byte :=
  let x := s.ast.blocks.get b
  be 1 x.guard.code ++ be 1 x.writePointer ++ be 2 x.eraseCount ++
    ([PageState.erased, .programming, .programmed, .failed, .erasing].flatMap fun st => be 1 (pageCount x st)) ++
    flag (s.ast.erasing b) ++ flag (s.ast.programmingIn b) ++ flag (s.ast.heldIn b)

/-- The store page record: the page's state and the samples asked for (R163). -/
def storePageRecord (s : State) (page off count : Nat) : Found :=
  match index 2048 page with
  | none => .refused .range
  | some p =>
    if 511 < off ∨ count = 0 ∨ 32 < count ∨ 512 < off + count then .refused .range
    else .record (be 1 (s.ast.pageState p).code ++
      counted ((List.range count).map fun k => [s.ast.sample p (off + k)]))

/-- An entry of the result history: operation, page or block, result (R179). That page or block is one field of two bytes is the
model's (entry 13). -/
def HistoryResult.bytes : HistoryResult → List Byte
  | .program p r => be 1 0 ++ be 2 p.val ++ be 1 (StoreResult.code r)
  | .erase b r => be 1 1 ++ be 2 b.val ++ be 1 (StoreResult.code r)

/-- The store status record (R179). That the unit's page and its block are two fields that may be absent is the model's
(entry 13). -/
def storeStatusRecord (s : State) : List Byte :=
  let unit : Nat × Option Nat × Option Nat := match s.ast.unit with
    | .idle => (0, none, none)
    | .programming l => (1, some l.page.val, none)
    | .erasing b => (2, none, some b.val)
  be 1 unit.1 ++ optionalField 2 unit.2.1 ++ optionalField 1 unit.2.2 ++
    optionalField 2 (s.ast.holder.map fun l => l.page.val) ++ flag s.ast.buffer.isSome ++
    optionalField 2 (s.ast.buffer.map fun l => l.page.val) ++ optionalRecord 4 (s.ast.last.map HistoryResult.bytes) ++
    optionalRecord 4 (s.ast.previous.map HistoryResult.bytes)

/-- The message record. -/
def messageRecord (s : State) (m : MessageId) : List Byte :=
  let e := s.ast.messages.get m
  flag e.isSome ++ optionalField 2 (e.map (·.first)) ++ optionalField 2 (e.map (·.count)) ++ optionalField 2 (e.map (·.gain)) ++
    be 1 (namedBy s.bku m)

/-- The settings state record. -/
def settingsRecord (s : State) : List Byte := flag s.ast.settings.isSome ++ flag s.ast.saving.isSome

/-! ### The incident controller and the reset causes (R189, R202) -/

/-- The profile row record. -/
def profileRecord (s : State) (k : Fin 4) : List Byte :=
  let r := s.ict.profile.get k
  be 1 r.announceMask ++ flag r.talkAuto ++ flag r.broadcastPreempt ++ be 1 r.shedRank ++ flag r.protectBreakIn ++
    flag (k = s.ict.effective)

/-- The incident state record; of the last sample, asserted is 0 and not asserted 1, as R181 lists them. -/
def incidentRecord (s : State) : List Byte :=
  let i := s.ict
  be 1 (if i.asserted then 0 else 1) ++ be 1 i.run ++ be 1 i.latched.val ++ be 1 i.commanded.val ++ be 1 i.effective.val ++
    be 1 i.lineLevel.val ++ optionalHfn i.sampleHfn

/-- The reset causes record. -/
def causesRecord (s : State) : List Byte :=
  let c := s.mga.causes
  flag c.powerOn ++ flag c.line ++ flag c.restart ++ be 1 c.last.code ++ be 1 c.count ++ flag s.mga.restart.isSome ++
    optionalField 1 (s.mga.restart.map RestartForm.code)

/-! ### RDREC (R196, R210) -/

/-- What a selector finds in the state. -/
def State.record (s : State) : Selector → Found
  | .carrier c => found (index 64 c) (carrierRecord s)
  | .placement c g => match index 64 c, index 8 g with
    | some c, some g =>
      match (s.ctb.get c).placements.get g with
      | some p => if (s.ctb.get c).state = .free then .refused .notFound else .record (placementRecord s c g p)
      | none => .refused .notFound
    | _, _ => .refused .range
  | .group g => found (index 8 g) (groupRecord s)
  | .lane g l => match index 8 g, index 32 l with
    | some g, some l => .record (laneRecord s g l)
    | _, _ => .refused .range
  | .remote g k => match index 8 g, posOf k with
    | some g, some k => .record (remoteRecord s g k)
    | _, _ => .refused .range
  | .context g k sd => match index 8 g, posOf k, codeSide sd with
    | some g, some k, some sd => .record (contextRecord s g k sd)
    | _, _, _ => .refused .range
  | .spanPort p => found (index 8 p) (spanPortRecord s)
  | .trunkPort p => found (codeTrunk p) (trunkPortRecord s)
  | .reference => .record (referenceRecord s)
  | .player p => found (codePlayer p) (playerRecord s)
  | .queuePosition n => queueRecord s n
  | .storeBlock b => found (index 32 b) (storeBlockRecord s)
  | .storePage p o n => storePageRecord s p o n
  | .storeStatus => .record (storeStatusRecord s)
  | .message m => found (index 48 m) (messageRecord s)
  | .settingsState => .record (settingsRecord s)
  | .profileRow k => found (index 4 k) (profileRecord s)
  | .incidentState => .record (incidentRecord s)
  | .resetCauses => .record (causesRecord s)

/-- The number of parts of a record: parts of 41 bytes, at least one (R210). -/
def partCount (n : Nat) : Nat := max 1 ((n + 40) / 41)

/-- The body that carries part `p` of a record (R210). -/
def partBody (bs : List Byte) (p : Nat) : List Byte := be 1 (partCount bs.length) ++ bytesAt bs (41 * p) 41

/-- RDREC, reading the view `v` of the state `s` (R196). -/
def rdrecOf (v : State) (sel : Selector) (part : Nat) (s : State) : Answer :=
  match v.record sel with
  | .refused st => refuse st s
  | .record bs => if partCount bs.length ≤ part then refuse .range s else okWith s (partBody bs part)

/-- RDREC of the state as it stands. -/
def rdrec (sel : Selector) (part : Nat) (s : State) : Answer := rdrecOf s sel part s

/-- The meaning of RDREC. -/
def execRdrec (p : TrunkId) (tag : Nat) (sel : Selector) (part : Nat) (s : State) : Host.Outcome State Fault Refusal :=
  requestCommand p tag (requestCode (.rdrec sel part)) (rdrec sel part) s

end Sys2Proof.Machine
end

