-- ==== Sys2Proof/Machine/Resets.lean ====
section
/-! DEFINITION. Resets and start-up (R202 to R205): the reset values of every block, the settings load, power-on, the LINE reset, RESTART and CAUSECLR. -/
namespace Sys2Proof.Machine

/-! ### Reset causes (R202) -/

/-- One more reset, held at 255. -/
def CauseRecord.counted (c : CauseRecord) (last : LastCause) : CauseRecord := { c with last := last, count := min 255 (c.count + 1) }

/-- The record as a LINE reset takes effect. -/
def CauseRecord.lineReset (c : CauseRecord) : CauseRecord := { c.counted .line with line := true }

/-- The last cause that a form of RESTART leaves. -/
def RestartForm.cause : RestartForm → LastCause
  | .keep => .restartKeep
  | .reload => .restartReload

/-- The record as a RESTART takes effect. -/
def CauseRecord.restarted (c : CauseRecord) (f : RestartForm) : CauseRecord := { c.counted f.cause with restart := true }

/-! ### Reset values -/

/-- The page being programmed made FAILED; the block being erased FAILED with write pointer 64 and one erase more (R180). -/
def Store.cutShort (t : Store) : Store :=
  match t.unit with
  | .idle => t
  | .programming l => t.setPage l.page .failed
  | .erasing b => t.eraseEnd b .fail

/-- The held page dropped: its block's write pointer returns to its index (R180). -/
def Store.dropHeld (t : Store) : Store :=
  match t.holder with
  | some q => t.editBlock (blockOf q.page) fun b => { b with writePointer := (indexOf q.page).val }
  | none => t

/-- The store across a reset (R180); a save cut short leaves the area invalid, as it has been since its SAVE. -/
def Store.afterReset (t : Store) : Store :=
  { t.cutShort.dropHeld with buffer := none, unit := .idle, holder := none, last := none, previous := none, saving := none }

/-- A carrier as RESTART KEEP takes it over: placement states lost, one ACTIVE made DEFINED to be activated again (R21). -/
def Carrier.kept (c : Carrier) : Carrier :=
  { c with state := if c.state = .active then .defined else c.state, placements := barePlacements c.placements }

/-- Step 1 of R205: every block at its reset values, with `keep` those of RESTART KEEP (R20, R21, R27, R46, R68, R95, R114,
R133, R134, R160, R180, R190, R204). -/
def resetBlocks (keep : Bool) (causes : CauseRecord) (s : State) : State :=
  let config := fun g => if keep then configOf s.lal g else GroupConfig.default
  { fps := { Pacer.default with
      holdLimit := if keep then s.fps.holdLimit else Pacer.default.holdLimit
      trim := if keep then s.fps.trim else 0
      rateDraws := s.fps.rateDraws }
    tif := .default
    ctb := if keep then .make fun c => (s.ctb.get c).kept else .fill .default
    lal := .make fun g => .empty (config g)
    dmx := .fill .default
    sif := { ports := .fill .default, remotes := .make fun g => setUpRemotes (config g), out := .fill none }
    ucb := .default
    bku := .empty (if keep then s.bku.params else .default)
    ast := s.ast.afterReset
    ict := if keep then .fresh s.ict.lineLevel s.ict.profile else .fresh 2 defaultProfile
    mga := .fresh causes
    pins := s.pins
    pending := s.pending }

/-! ### Start-up (R205) -/

/-- A carrier as loaded: FREE stays FREE, any other becomes DEFINED with its fields and trims (R20). -/
def Carrier.loaded (c : Carrier) : Carrier :=
  if c.state = .free then .default else { c.saved with state := .defined, fields := c.fields }

/-- The snapshot loaded, but for the activations: group configurations with their remotes set up, profile and line level,
carrier records, player parameters, holdover limit and trim (R20, R27, R178). -/
def State.load (s : State) (x : Snapshot) : State :=
  { s with
    lal := .make fun g => .empty (x.groups.get g)
    sif := { s.sif with remotes := .make fun g => setUpRemotes (x.groups.get g) }
    ict := .fresh x.lineLevel x.profile
    ctb := .make fun c => (x.carriers.get c).loaded
    bku := { s.bku with params := x.params }
    fps := { s.fps with holdLimit := x.holdLimit, trim := x.trim } }

/-- The detail of START completed; its entry keeps its place and its count (R205). -/
def Agent.completeStart (m : Agent) (n : Notice) : Agent :=
  { m with queue := m.queue.map fun e => if e.sameKey n then { e with latest := n } else e }

/-- Steps 2 to 4 of R205 on a hub whose blocks are reset and loaded: START made, the given carriers activated in order, and
the detail of START completed. -/
def startUp (outcome : SettingsOutcome) (ids : List CarrierId) (s : State) : State :=
  let s := s.raise (.start s.mga.causes outcome 0 0)
  let r := Alloc.activateAll s.ict.row ids (s.alloc, 0, 0)
  let t := s.withAlloc r.1
  { t with mga := t.mga.completeStart (.start t.mga.causes outcome r.2.1 r.2.2) }

/-- The carriers that a load activates, ascending (R20). -/
def startActiveIds (t : Table Carrier 64) : List CarrierId :=
  (List.finRange 64).filter fun c => (t.get c).state = .defined && (t.get c).fields.startActive

/-- The start-up that reads the settings area (R205). -/
def startUpLoading (s : State) : State :=
  match s.ast.settings with
  | none => startUp .absent [] s
  | some x =>
    let t := s.load x
    startUp .loaded (startActiveIds t.ctb) t

/-- A RESTART taking effect: reset and start-up at once (R203, R205). -/
def restartNow (f : RestartForm) (s : State) : State :=
  let causes := s.mga.causes.restarted f
  match f with
  | .keep => startUp .kept ((List.finRange 64).filter fun c => (s.ctb.get c).state = .active) (resetBlocks true causes s)
  | .reload => startUpLoading (resetBlocks false causes s)

/-! ### The commands -/

/-- POWER_ON: the hub is reset at once and held until its supplies are steady (R204, R212). -/
def powerOn (s : State) : State :=
  let t := resetBlocks false .poweredOn s
  { t with pins := { t.pins with powerHold := true } }

/-- LINE_RESET: the hub is reset at once and held until the reset input is released (R204, R212); an input that is held
already is no new reset (entry 6). -/
def lineReset (s : State) : State :=
  if s.pins.resetInput then s
  else
    let t := resetBlocks false s.mga.causes.lineReset s
    { t with pins := { t.pins with resetInput := true } }

/-- The hub starts up once neither the reset input nor the power-on hold keeps it in reset (R205, R212). -/
def leaveReset (s : State) : State := if s.held then s else startUpLoading s

/-- RESET_INPUT_RELEASE (R204, R212). -/
def resetInputRelease (s : State) : State :=
  if s.pins.resetInput then leaveReset { s with pins := { s.pins with resetInput := false } } else s

/-- SUPPLIES_STEADY (R212). -/
def suppliesSteady (s : State) : State :=
  if s.pins.powerHold then leaveReset { s with pins := { s.pins with powerHold := false } } else s

/-- RESTART_TAKES_EFFECT: in place of the slot event that follows an accepted RESTART (R203); with none pending there is
nothing to take effect (entry 24). -/
def restartTakesEffect (s : State) : State :=
  match s.mga.restart with
  | some f => restartNow f s
  | none => s

/-- The meaning of POWER_ON. -/
def execPowerOn (s : State) : Host.Outcome State Fault Refusal := .next (powerOn s)

/-- The meaning of LINE_RESET. -/
def execLineReset (s : State) : Host.Outcome State Fault Refusal := .next (lineReset s)

/-- The meaning of RESET_INPUT_RELEASE. -/
def execResetInputRelease (s : State) : Host.Outcome State Fault Refusal := .next (resetInputRelease s)

/-- The meaning of SUPPLIES_STEADY. -/
def execSuppliesSteady (s : State) : Host.Outcome State Fault Refusal := .next (suppliesSteady s)

/-- The meaning of RESTART_TAKES_EFFECT. -/
def execRestartTakesEffect (s : State) : Host.Outcome State Fault Refusal := eventCommand restartTakesEffect s

/-! ### RESTART and CAUSECLR -/

/-- RESTART (R203). -/
def restart (n : Nat) (s : State) : Answer :=
  match codeRestart n with
  | none => refuse .range s
  | some f =>
    if s.ast.unit ≠ .idle ∨ s.ast.holder.isSome ∨ s.ast.saving.isSome then refuse .busy s
    else okWith { s with mga := { s.mga with restart := some f } } []

/-- CAUSECLR (R202). -/
def causeclr (s : State) : Answer := okWith { s with mga := { s.mga with causes := .cleared } } []

/-- The meaning of RESTART. -/
def execRestart (p : TrunkId) (tag n : Nat) (s : State) : Host.Outcome State Fault Refusal :=
  requestCommand p tag (requestCode (.restart n)) (restart n) s

/-- The meaning of CAUSECLR. -/
def execCauseclr (p : TrunkId) (tag : Nat) (s : State) : Host.Outcome State Fault Refusal :=
  requestCommand p tag (requestCode .causeclr) causeclr s

end Sys2Proof.Machine
end

