-- ==== Sys2Proof/Machine/Slot.lean ====
section
/-! DEFINITION. The slot event (R125): every block's work of a slot, the requests of its two control cells, the line sample, and the frames of the slot. -/
namespace Sys2Proof.Machine

/-! ### Requests from control cells (R191 to R194) -/

/-- The kind's own checks and effects (R192), an RDREC reading the view `v` of the state. -/
def requestAct (v : State → State) : Request → State → Answer
  | .rdrec sel part => fun s => rdrecOf (v s) sel part s
  | .carset a => carset a
  | .caron c => caron c
  | .caroff c => caroff c
  | .carclr c => carclr c
  | .trim c g x => trim c g x
  | .grpset a => grpset a
  | .sprst p => sprst p
  | .incset l => incset l
  | .incclr => incclr
  | .profset a => profset a
  | .annc a => annc a
  | .ancan t => ancan t
  | .voxset a => voxset a
  | .pgopen p => pgopen p
  | .pgdata o d => pgdata o d
  | .pgcommit => pgcommit
  | .blkerase b => blkerase b
  | .blkguard b k => blkguard b k
  | .msgdef a => msgdef a
  | .msgclr m => msgclr m
  | .trksel p => trksel p
  | .timset l v => timset l v
  | .save => save
  | .restart f => restart f
  | .causeclr => causeclr

/-- One control cell handed over from port `p` (R191). -/
def takeCell (v : State → State) (p : TrunkId) (cell : List Byte) (s : State) : State :=
  match readCell cell with
  | .badCheck => s.respond p ⟨0, 0, .malformed, []⟩
  | .empty => s
  | .malformed tag kind => s.respond p ⟨tag, kind, .malformed, []⟩
  | .request tag r => serve p tag (requestCode r) (requestAct v r) s

/-- The cell of the good frame consumed on port `p`, if one was (R121). -/
def takeFrameCell (v : State → State) (p : TrunkId) (f : Option (List Byte)) (s : State) : State :=
  match f with
  | some bs => takeCell v p (frameCell bs) s
  | none => s

/-! ### What a read taken early sees (R67, R113; entry 27) -/

/-- The limiter states as left by the slot before, under floors stored since (R64, R67). -/
def earlyLimiters (pre s : State) : Table Limiter 8 :=
  .make fun g => { pre.dmx.get g with factor := max (pre.dmx.get g).factor (configOf s.lal g).floor }

/-- The combiner as left by the close before, with the gates closed and histories emptied since (R103, R109, R113). -/
def earlyCombiner (pre s : State) : Combiner :=
  { s.ucb with
    gates := .make fun g => .make fun l =>
      if ((s.lal.get g).lanes.get l).state = .live then (pre.ucb.gates.get g).get l else closedGates
    history := .make fun c => if (s.ctb.get c).state = .active then pre.ucb.history.get c else []
    lastClose := .make fun c =>
      if (s.ctb.get c).state = .active ∧ (pre.ctb.get c).state ≠ .active then none else pre.ucb.lastClose.get c
    lastClosed := pre.ucb.lastClosed }

/-- The view of an RDREC executed in the slot: before the mixer's work and the close, or after them. That the RDRECs of both
ports in one slot fall on the same side of each is the model's (entry 27). -/
def earlyView (ord : SlotOrder) (pre s : State) : State :=
  { s with
    dmx := if ord.readsBeforeMixer then earlyLimiters pre s else s.dmx
    ucb := if ord.readsBeforeClose then earlyCombiner pre s else s.ucb }

/-! ### The works of a slot -/

/-- Everything that the works of slot `n` use, each item as named in its chapter (Tables 3-1 and 5-2, R146): the hub before
the slot event, the lane tables of HFN n with the coverage of the slot, the active frame, and the work of the players. -/
def slotInput (n : FrameNo) (pre : State) (active : Option (List Byte)) : MixInput where
  hfn := n
  pre := pre
  lanes := markLanes pre.ctb pre.bku (guardStep pre.lal)
  active := active
  play0 := pre.bku.bp0.slotWork pre.ast pre.bku.params (active.map frameSpeech)
  play1 := pre.bku.bp1.slotWork pre.ast pre.bku.params (active.map frameSpeech)

/-- The span side's work: missed slots (R71), then the close of slot n-4 (R97). -/
def spanWork (i : MixInput) (s : State) : State :=
  closeSlot i.hfn i.pre.ctb i.lanes (s.withSpans (s.spans.missSlots s.lal))

/-- The break-in unit's work (R146). -/
def playerWork (i : MixInput) (s : State) : State :=
  s.withBku (s.bkuView.slotWork i.hfn s.ict.row.announceMask i.play0 i.play1 i.lanes)

/-- The works of the slot in the order given. -/
def works (o : WorkOrder) (i : MixInput) (s : State) : State :=
  match o with
  | .mixerSpanPlayers => playerWork i (spanWork i (mixerWork i s))
  | .mixerPlayersSpan => spanWork i (playerWork i (mixerWork i s))
  | .spanMixerPlayers => playerWork i (mixerWork i (spanWork i s))
  | .spanPlayersMixer => mixerWork i (playerWork i (spanWork i s))
  | .playersMixerSpan => spanWork i (mixerWork i (playerWork i s))
  | .playersSpanMixer => mixerWork i (spanWork i (playerWork i s))

/-! ### Span downlink frames (R30, R90, R91) -/

/-- The directive for a position (R90). -/
def directiveFor (cfg : GroupConfig) (r : Remote) (k : Pos) : Directive :=
  if cfg.configured k then ⟨true, r.feed, r.inService⟩ else ⟨false, .a, false⟩

/-- The span downlink frame of HFN n for group `g` (R91). -/
def downlinkFrame (i : MixInput) (g : GroupId) : DownlinkFrame where
  hfn := i.hfn
  timing := i.pre.fps.ref
  level := i.pre.ict.effective
  directives := .make fun k => directiveFor (configOf i.pre.lal g) ((i.pre.sif.remotes.get g).get k) k
  laneMap := .make fun l => mapEntry i.pre.ctb ((i.lanes.get g).lanes.get l)
  blocks := .make fun l => (i.lane g l).block

/-- The frame sent on a port, if it is enabled and not quiet (R91). -/
def sentOn (i : MixInput) (p : SpanId) (x : SpanPort) : Option DownlinkFrame :=
  match servedBy i.pre.lal p with
  | some (g, _) => if x.quiet = 0 then some (downlinkFrame i g) else none
  | none => none

/-- The frames of HFN n sent, and the quiet counts of the ports that send none counted down (R91). -/
def sendSpans (i : MixInput) (s : State) : State :=
  { s with sif := { s.sif with
      out := .make fun p => sentOn i p (s.sif.ports.get p)
      ports := .make fun p => { s.sif.ports.get p with quiet := (s.sif.ports.get p).quiet - 1 } } }

/-! ### The tail of a slot -/

/-- The line sample and the two cells, in the order given (R188, R193). -/
def tail (o : TailOrder) (line reqA reqB : State → State) (s : State) : State :=
  match o with
  | .lineAB => reqB (reqA (line s))
  | .lineBA => reqA (reqB (line s))
  | .aLineB => reqB (line (reqA s))
  | .bLineA => reqA (line (reqB s))
  | .abLine => line (reqB (reqA s))
  | .baLine => line (reqA (reqB s))

/-- The hub at the slot event of `n`, before its works: HFN counted, responses cleared, the consumption taken, the lane tables
of HFN n in place (R125, R194, R117, R29). -/
def openSlot (n : FrameNo) (ord : SlotOrder) (s : State) : State × HandOver :=
  let c := consumption ord.expiryFirst { s with mga := { s.mga with respA := none, respB := none } }
  ({ c.1 with fps := { c.1.fps with hfn := some n }, lal := markLanes s.ctb s.bku (guardStep s.lal) }, c.2)

/-- The slot event of `n`. -/
def slotEvent (n : FrameNo) (line : Bool) (ord : SlotOrder) (s : State) : State :=
  let c := openSlot n ord s
  let i := slotInput n s c.2.active
  let v := earlyView ord s
  let t := sendSpans i (works ord.works i c.1)
  let t := tail ord.tail (lineSample n line) (takeFrameCell v .a c.2.frameA) (takeFrameCell v .b c.2.frameB) t
  completeFrames n t

/-- SLOT: the slot event of the next HFN; where a RESTART is pending the restart takes effect in its place (R203), and while
the hub is held in reset no slot event is raised (R204). -/
def slot (line : Bool) (ord : SlotOrder) (s : State) : State :=
  match s.mga.restart with
  | some f => restartNow f s
  | none => slotEvent s.fps.next line ord s

/-- The meaning of SLOT. -/
def execSlot (line : Bool) (ord : SlotOrder) (s : State) : Host.Outcome State Fault Refusal := eventCommand (slot line ord) s

end Sys2Proof.Machine
end

