-- ==== Sys2Proof/Machine/Dispatch.lean ====
section
/-! DEFINITION. The meaning of every command: one arm per row of the table. -/
namespace Sys2Proof.Machine

def exec (i : Instr) (s : State) : Host.Outcome State Fault Refusal :=
  match i with
  | .slot line order => Sys2Proof.Machine.execSlot line order s
  | .holdoverExpiry => Sys2Proof.Machine.execHoldoverExpiry s
  | .laneGuardExpiry g l => Sys2Proof.Machine.execLaneGuardExpiry g l s
  | .overBudget g => Sys2Proof.Machine.execOverBudget g s
  | .missLimitReached g pos side => Sys2Proof.Machine.execMissLimitReached g pos side s
  | .hangExpiry g l pos => Sys2Proof.Machine.execHangExpiry g l pos s
  | .fadeEnd p => Sys2Proof.Machine.execFadeEnd p s
  | .gapEnd p => Sys2Proof.Machine.execGapEnd p s
  | .liveSpeechLoss p => Sys2Proof.Machine.execLiveSpeechLoss p s
  | .trunkFrameArrival port frame => Sys2Proof.Machine.execTrunkFrameArrival port frame s
  | .spanUplinkFrameArrival port frame => Sys2Proof.Machine.execSpanUplinkFrameArrival port frame s
  | .rdrec port tag sel part => Sys2Proof.Machine.execRdrec port tag sel part s
  | .carset port tag args => Sys2Proof.Machine.execCarset port tag args s
  | .caron port tag c => Sys2Proof.Machine.execCaron port tag c s
  | .caroff port tag c => Sys2Proof.Machine.execCaroff port tag c s
  | .carclr port tag c => Sys2Proof.Machine.execCarclr port tag c s
  | .trim port tag c g v => Sys2Proof.Machine.execTrim port tag c g v s
  | .grpset port tag args => Sys2Proof.Machine.execGrpset port tag args s
  | .sprst port tag span => Sys2Proof.Machine.execSprst port tag span s
  | .incset port tag level => Sys2Proof.Machine.execIncset port tag level s
  | .incclr port tag => Sys2Proof.Machine.execIncclr port tag s
  | .profset port tag args => Sys2Proof.Machine.execProfset port tag args s
  | .annc port tag args => Sys2Proof.Machine.execAnnc port tag args s
  | .ancan port tag n => Sys2Proof.Machine.execAncan port tag n s
  | .voxset port tag args => Sys2Proof.Machine.execVoxset port tag args s
  | .pgopen port tag page => Sys2Proof.Machine.execPgopen port tag page s
  | .pgdata port tag offset samples => Sys2Proof.Machine.execPgdata port tag offset samples s
  | .pgcommit port tag => Sys2Proof.Machine.execPgcommit port tag s
  | .blkerase port tag block => Sys2Proof.Machine.execBlkerase port tag block s
  | .blkguard port tag block bar => Sys2Proof.Machine.execBlkguard port tag block bar s
  | .msgdef port tag args => Sys2Proof.Machine.execMsgdef port tag args s
  | .msgclr port tag m => Sys2Proof.Machine.execMsgclr port tag m s
  | .trksel port tag n => Sys2Proof.Machine.execTrksel port tag n s
  | .timset port tag limit v => Sys2Proof.Machine.execTimset port tag limit v s
  | .save port tag => Sys2Proof.Machine.execSave port tag s
  | .restart port tag form => Sys2Proof.Machine.execRestart port tag form s
  | .causeclr port tag => Sys2Proof.Machine.execCauseclr port tag s
  | .storeProgramCompletion r => Sys2Proof.Machine.execStoreProgramCompletion r s
  | .storeEraseCompletion r => Sys2Proof.Machine.execStoreEraseCompletion r s
  | .settingsSaveCompletion r => Sys2Proof.Machine.execSettingsSaveCompletion r s
  | .powerOn => Sys2Proof.Machine.execPowerOn s
  | .lineReset => Sys2Proof.Machine.execLineReset s
  | .restartTakesEffect => Sys2Proof.Machine.execRestartTakesEffect s
  | .resetInputRelease => Sys2Proof.Machine.execResetInputRelease s
  | .suppliesSteady => Sys2Proof.Machine.execSuppliesSteady s

end Sys2Proof.Machine
end

