-- ==== Sys2Proof/WellFormed.lean ====
section
/-! DEFINITION. Which commands can be sent: a request's tag and arguments fit the bytes Table 11-5 gives them, and PGDATA carries no more samples than a cell holds (R209). -/
namespace Sys2Proof

/-- `v` fits `k` bytes (R207). -/
def fits (k v : Nat) : Bool := v < 256 ^ k

/-- A request's tag is one byte (Table 11-4). -/
def tagOk (tag : Nat) : Bool := fits 1 tag

/-- The widths of the arguments of CARSET. -/
def CarsetArgs.ok (a : CarsetArgs) : Bool :=
  fits 1 a.carrier && fits 1 a.kind && fits 2 a.rfCode && fits 1 a.dlSource && fits 1 a.ulDest && fits 1 a.groups &&
  fits 2 a.dlGain && fits 2 a.ulGain && fits 4 a.sqOpen && fits 4 a.sqClose && fits 2 a.hang && fits 1 a.rank &&
  fits 1 a.talkMode && fits 2 a.talkGain && fits 1 a.eligible && fits 1 a.startActive

/-- The widths of the arguments of GRPSET. -/
def GrpsetArgs.ok (a : GrpsetArgs) : Bool :=
  fits 1 a.group && fits 1 a.form && fits 1 a.remotes && fits 5 a.ceiling && fits 2 a.floor && fits 2 a.guard && fits 2 a.missLimit

/-- The widths of the arguments of PROFSET. -/
def ProfsetArgs.ok (a : ProfsetArgs) : Bool :=
  fits 1 a.row && fits 1 a.announceMask && fits 1 a.talkAuto && fits 1 a.broadcastPreempt && fits 1 a.shedRank &&
  fits 1 a.protectBreakIn && fits 1 a.lineLevel

/-- The widths of the arguments of ANNC. -/
def AnncArgs.ok (a : AnncArgs) : Bool :=
  fits 1 a.tag && fits 1 a.message && fits 1 a.priority && fits 1 a.plays && fits 2 a.gap && fits 1 a.zones &&
  fits 1 a.setForm && fits 8 a.carriers

/-- The widths of the arguments of VOXSET. -/
def VoxsetArgs.ok (a : VoxsetArgs) : Bool :=
  fits 1 a.deviation && fits 2 a.amplitude && fits 2 a.fadeStep && fits 2 a.liveGain

/-- The widths of the arguments of MSGDEF. -/
def MsgdefArgs.ok (a : MsgdefArgs) : Bool :=
  fits 1 a.message && fits 2 a.first && fits 2 a.count && fits 2 a.gain

/-- The widths of a selector's argument bytes (Table 11-6). -/
def Selector.ok : Selector → Bool
  | .carrier c => fits 1 c
  | .placement c g => fits 1 c && fits 1 g
  | .group g => fits 1 g
  | .lane g l => fits 1 g && fits 1 l
  | .remote g p => fits 1 g && fits 1 p
  | .context g p sd => fits 1 g && fits 1 p && fits 1 sd
  | .spanPort p => fits 1 p
  | .trunkPort p => fits 1 p
  | .reference => true
  | .player p => fits 1 p
  | .queuePosition p => fits 1 p
  | .storeBlock b => fits 1 b
  | .storePage p o n => fits 2 p && fits 2 o && fits 1 n
  | .storeStatus => true
  | .message m => fits 1 m
  | .settingsState => true
  | .profileRow r => fits 1 r
  | .incidentState => true
  | .resetCauses => true

/-- A command that can be sent. -/
def Instr.wellFormed : Instr → Bool
  | .slot _ _ => true
  | .holdoverExpiry => true
  | .laneGuardExpiry _ _ => true
  | .overBudget _ => true
  | .missLimitReached _ _ _ => true
  | .hangExpiry _ _ _ => true
  | .fadeEnd _ => true
  | .gapEnd _ => true
  | .liveSpeechLoss _ => true
  | .trunkFrameArrival _ _ => true
  | .spanUplinkFrameArrival _ _ => true
  | .rdrec _ t sel part => tagOk t && sel.ok && fits 1 part
  | .carset _ t a => tagOk t && a.ok
  | .caron _ t c => tagOk t && fits 1 c
  | .caroff _ t c => tagOk t && fits 1 c
  | .carclr _ t c => tagOk t && fits 1 c
  | .trim _ t c g v => tagOk t && fits 1 c && fits 1 g && fits 2 v
  | .grpset _ t a => tagOk t && a.ok
  | .sprst _ t p => tagOk t && fits 1 p
  | .incset _ t l => tagOk t && fits 1 l
  | .incclr _ t => tagOk t
  | .profset _ t a => tagOk t && a.ok
  | .annc _ t a => tagOk t && a.ok
  | .ancan _ t n => tagOk t && fits 1 n
  | .voxset _ t a => tagOk t && a.ok
  | .pgopen _ t p => tagOk t && fits 2 p
  | .pgdata _ t o d => tagOk t && fits 2 o && d.length ≤ 40
  | .pgcommit _ t => tagOk t
  | .blkerase _ t b => tagOk t && fits 1 b
  | .blkguard _ t b k => tagOk t && fits 1 b && fits 1 k
  | .msgdef _ t a => tagOk t && a.ok
  | .msgclr _ t m => tagOk t && fits 1 m
  | .trksel _ t p => tagOk t && fits 1 p
  | .timset _ t l v => tagOk t && fits 4 l && (-128 ≤ v && v ≤ 127)
  | .save _ t => tagOk t
  | .restart _ t f => tagOk t && fits 1 f
  | .causeclr _ t => tagOk t
  | .storeProgramCompletion _ => true
  | .storeEraseCompletion _ => true
  | .settingsSaveCompletion _ => true
  | .powerOn => true
  | .lineReset => true
  | .restartTakesEffect => true
  | .resetInputRelease => true
  | .suppliesSteady => true

end Sys2Proof
end

