-- ==== Sys2Proof/Safety.lean ====
section
/-! DEFINITION. The terms in which claims are stated: requests and their answers, and the laws that every step keeps. -/
namespace Sys2Proof.Machine

/-! ### Requests and answers -/

/-- The port, tag and kind code of a command that is a request (Table 11-5). -/
def asRequest : Instr → Option (TrunkId × Nat × Nat)
  | .slot .. => none
  | .holdoverExpiry => none
  | .laneGuardExpiry .. => none
  | .overBudget _ => none
  | .missLimitReached .. => none
  | .hangExpiry .. => none
  | .fadeEnd _ => none
  | .gapEnd _ => none
  | .liveSpeechLoss _ => none
  | .trunkFrameArrival .. => none
  | .spanUplinkFrameArrival .. => none
  | .rdrec p t _ _ => some (p, t, 1)
  | .carset p t _ => some (p, t, 2)
  | .caron p t _ => some (p, t, 3)
  | .caroff p t _ => some (p, t, 4)
  | .carclr p t _ => some (p, t, 5)
  | .trim p t _ _ _ => some (p, t, 6)
  | .grpset p t _ => some (p, t, 7)
  | .sprst p t _ => some (p, t, 8)
  | .incset p t _ => some (p, t, 9)
  | .incclr p t => some (p, t, 10)
  | .profset p t _ => some (p, t, 11)
  | .annc p t _ => some (p, t, 12)
  | .ancan p t _ => some (p, t, 13)
  | .voxset p t _ => some (p, t, 14)
  | .pgopen p t _ => some (p, t, 15)
  | .pgdata p t _ _ => some (p, t, 16)
  | .pgcommit p t => some (p, t, 17)
  | .blkerase p t _ => some (p, t, 18)
  | .blkguard p t _ _ => some (p, t, 19)
  | .msgdef p t _ => some (p, t, 20)
  | .msgclr p t _ => some (p, t, 21)
  | .trksel p t _ => some (p, t, 22)
  | .timset p t _ _ => some (p, t, 23)
  | .save p t => some (p, t, 24)
  | .restart p t _ => some (p, t, 25)
  | .causeclr p t => some (p, t, 26)
  | .storeProgramCompletion _ => none
  | .storeEraseCompletion _ => none
  | .settingsSaveCompletion _ => none
  | .powerOn => none
  | .lineReset => none
  | .restartTakesEffect => none
  | .resetInputRelease => none
  | .suppliesSteady => none

/-- A request from a port with a tag, as a command of its own. -/
def commandOf (p : TrunkId) (tag : Nat) : Request → Instr
  | .rdrec sel part => .rdrec p tag sel part
  | .carset a => .carset p tag a
  | .caron c => .caron p tag c
  | .caroff c => .caroff p tag c
  | .carclr c => .carclr p tag c
  | .trim c g v => .trim p tag c g v
  | .grpset a => .grpset p tag a
  | .sprst q => .sprst p tag q
  | .incset n => .incset p tag n
  | .incclr => .incclr p tag
  | .profset a => .profset p tag a
  | .annc a => .annc p tag a
  | .ancan n => .ancan p tag n
  | .voxset a => .voxset p tag a
  | .pgopen n => .pgopen p tag n
  | .pgdata o bs => .pgdata p tag o bs
  | .pgcommit => .pgcommit p tag
  | .blkerase b => .blkerase p tag b
  | .blkguard b k => .blkguard p tag b k
  | .msgdef a => .msgdef p tag a
  | .msgclr m => .msgclr p tag m
  | .trksel n => .trksel p tag n
  | .timset n v => .timset p tag n v
  | .save => .save p tag
  | .restart n => .restart p tag n
  | .causeclr => .causeclr p tag

/-- The commands that act on a hub held in reset: the resets, and the ends of the two holds (R204, R212). -/
def actsOnHeldHub : Instr → Bool
  | .powerOn => true
  | .lineReset => true
  | .resetInputRelease => true
  | .suppliesSteady => true
  | _ => false

/-- The hub executes a request of any kind with this tag from this port: it is not held in reset, the tag is not 0, and the
consumption of the slot in course has settled the port ACTIVE (R191, R192, R204). -/
def State.hears (s : State) (p : TrunkId) (tag : Nat) : Prop := s.held = false ∧ tag ≠ 0 ∧ s.tif.settled = some p

/-- The hub with a response that stands for a port, in the state and in the frames of the slot in course (R194, R199). -/
def State.answered (s : State) (p : TrunkId) (tag code : Nat) (st : Status) (body : List Byte) : State :=
  (s.respond p ⟨tag, code, st, body⟩).refreshFrames

/-! ### Laws that every step keeps -/

/-- The snapshots that the store holds: the settings area's, and that of a save under way (R177). -/
def Store.snapshots (t : Store) : List Snapshot := t.settings.toList ++ t.saving.toList

/-- The memory has its canonical form (entry 8). -/
def State.memoryOk (s : State) : Prop := s.ast.memory.wf = true

/-- At most one trunk port is ACTIVE, only an UP port is, the reference state is LOCKED exactly while one is (R120, R127), and
where the consumption of the slot in course settled a port ACTIVE, one still is (R123). -/
def State.rolesOk (s : State) : Prop :=
  ¬(s.tif.a.role = .active ∧ s.tif.b.role = .active) ∧
  (s.tif.a.role = .active → s.tif.a.link = .up) ∧ (s.tif.b.role = .active → s.tif.b.link = .up) ∧
  (s.fps.ref = .locked ↔ s.tif.a.role = .active ∨ s.tif.b.role = .active) ∧
  (s.tif.settled ≠ none → s.tif.a.role = .active ∨ s.tif.b.role = .active)

/-- The notice queue holds at most 32 entries, one per key, each with a count of 1..255 (R197). -/
def State.noticesOk (s : State) : Prop :=
  s.mga.queue.length ≤ 32 ∧
  (s.mga.queue.map fun e => (e.latest.kindCode, e.latest.subject)).Nodup ∧
  ∀ e ∈ s.mga.queue, 1 ≤ e.count ∧ e.count ≤ 255

/-- ACTIVE carriers with an uplink destination have pairwise distinct destinations (R12). -/
def State.destinationsOk (s : State) : Prop :=
  ∀ c d : CarrierId, c ≠ d → (s.ctb.get c).state = .active → (s.ctb.get d).state = .active →
    (s.ctb.get c).fields.ulDest.isSome → (s.ctb.get c).fields.ulDest ≠ (s.ctb.get d).fields.ulDest

/-- Every limiter factor lies between its group's floor and 4096 (R63), saved floors are in range too (R22), and while the hub is
held in reset every limiter stands at its reset values (R68, R204). -/
def State.limiterOk (s : State) : Prop :=
  (s.held = true → ∀ g : GroupId, s.dmx.get g = .default) ∧
  (∀ g : GroupId, (configOf s.lal g).floor ≤ (s.dmx.get g).factor ∧ (s.dmx.get g).factor ≤ 4096) ∧
  ∀ x ∈ s.ast.snapshots, ∀ g : GroupId, (x.groups.get g).floor ≤ 4096

/-- A set of group configurations is consistent: only an even-numbered group is a RING, and the group after it is UNUSED (R23). -/
def formsAgree (f : GroupId → GroupForm) : Prop :=
  ∀ g : GroupId, f g = .ring → g.val % 2 = 0 ∧ f (groupAfter g) = .unused

/-- The configuration is consistent, and so is every saved one: forms agree, no ACTIVE carrier has an UNUSED group in its
set (R23), and the line level is 1..3 (R181). -/
def State.configOk (s : State) : Prop :=
  formsAgree (fun g => (configOf s.lal g).form) ∧ 1 ≤ s.ict.lineLevel.val ∧
  (∀ x ∈ s.ast.snapshots, (formsAgree fun g => (x.groups.get g).form) ∧ 1 ≤ x.lineLevel.val) ∧
  ∀ (c : CarrierId) (g : GroupId), (s.ctb.get c).state = .active → ((s.ctb.get c).placements.get g).isSome →
    (configOf s.lal g).form ≠ .unused

/-- Placement states, lane tables and waiting lists agree (R5, R17, R28, R34): a placement is HELD exactly while its carrier
owns a lane of the group and WAITING exactly while it is in the waiting list; an ACTIVE carrier's placements all have a
state and no other carrier's have one; a carrier owns at most one lane in a group; a lane is FREE exactly while it has no
owner; nobody waits twice. -/
def State.placementsOk (s : State) : Prop :=
  (∀ (c : CarrierId) (g : GroupId), s.alloc.placementState c g = some .held ↔ ∃ l : LaneId, (s.alloc.lane g l).owner = some c) ∧
  (∀ (c : CarrierId) (g : GroupId), s.alloc.placementState c g = some .waiting ↔ c ∈ s.alloc.waiting g) ∧
  (∀ (c : CarrierId) (g : GroupId), (s.ctb.get c).state ≠ .active → s.alloc.placementState c g = none) ∧
  (∀ (c : CarrierId) (g : GroupId), (s.ctb.get c).state = .active → ((s.ctb.get c).placements.get g).isSome →
    s.alloc.placementState c g ≠ none) ∧
  (∀ (g : GroupId) (l m : LaneId), (s.alloc.lane g l).owner.isSome → (s.alloc.lane g l).owner = (s.alloc.lane g m).owner → l = m) ∧
  (∀ (g : GroupId) (l : LaneId), (s.alloc.lane g l).state = .free ↔ (s.alloc.lane g l).owner = none) ∧
  (∀ g : GroupId, (s.alloc.waiting g).Nodup)

/-- The open combine slots are at most four consecutive HFNs up to that of the latest slot event, none before the first slot
event; a slot holds at most one section under a key (R96, R97). -/
def State.windowOk (s : State) : Prop :=
  (match s.fps.hfn with
    | none => s.ucb.window = []
    | some h => ∃ k, k ≤ 4 ∧ openSlots s.ucb.window = (List.range k).map fun j => h - BitVec.ofNat 16 (k - 1 - j)) ∧
  ∀ x ∈ s.ucb.window, (x.filed.map fun f => (f.group, f.pos, f.side)).Nodup

/-- A side context has a reason exactly while WAITING (R74). -/
def Context.reasonOk (c : Context) : Prop := c.reason.isSome ↔ c.state = .waiting

/-- Contexts follow the configuration (R74): a configured remote's side A is not IDLE and its side B is IDLE exactly outside a
RING; one not configured has both IDLE and is not in service; outside a RING the feed side is A. -/
def State.contextsOk (s : State) : Prop :=
  ∀ (g : GroupId) (k : Pos),
    let cfg := configOf s.lal g
    let r := (s.sif.remotes.get g).get k
    r.ctxA.reasonOk ∧ r.ctxB.reasonOk ∧ (cfg.form ≠ .ring → r.feed = .a) ∧
    (cfg.configured k = true → r.ctxA.state ≠ .idle ∧ (r.ctxB.state = .idle ↔ cfg.form ≠ .ring)) ∧
    (cfg.configured k = false → r.ctxA.state = .idle ∧ r.ctxB.state = .idle ∧ r.inService = false)

/-- Held announcement requests: at most 16, no two with one tag, the queue in falling priority; a player has a request exactly
while it is not IDLE and an intent exactly in FADE_OUT; no player in FADE_IN, PLAYING or GAP holds a request below the
announce mask; the players' zones are disjoint (R135, R137, R139, R143, R145). While the hub is held in reset nothing is queued and
both players are IDLE (R160, R204). -/
def State.breakInOk (s : State) : Prop :=
  s.bku.held.length ≤ 16 ∧ (s.bku.held.map (·.tag)).Nodup ∧
  s.bku.queue.Pairwise (fun a b => b.priority ≤ a.priority) ∧
  (∀ id : PlayerId, ((s.bku.player id).request = none ↔ (s.bku.player id).state = .idle) ∧
    ((s.bku.player id).intent.isSome ↔ (s.bku.player id).state = .fadeOut) ∧
    ((s.bku.player id).running = true → ∀ r, (s.bku.player id).request = some r → s.ict.row.announceMask ≤ r.priority)) ∧
  s.bku.bp0.zones &&& s.bku.bp1.zones = 0 ∧
  (s.held = true → s.bku.queue = [] ∧ s.bku.bp0.state = .idle ∧ s.bku.bp1.state = .idle)

/-- The write pointer of a page's block. -/
def Store.pointer (t : Store) (p : PageId) : Nat := (t.blocks.get (blockOf p)).writePointer

/-- The store's own law (R162, R167, R175): every page of every READY message is PROGRAMMED; pages from the write pointer on
are ERASED or being erased; the unit's page is PROGRAMMING and counted; the unit's block is ERASING throughout; a held page
is ERASED, the last one counted in its block, and waits for a unit that is not IDLE and not erasing its block. -/
def State.storeOk (s : State) : Prop :=
  (∀ (m : MessageId) (e : Message), s.ast.messages.get m = some e →
    1 ≤ e.count ∧ e.first + e.count ≤ 2048 ∧ ∀ p : PageId, e.has p = true → s.ast.pageState p = .programmed) ∧
  (∀ b : BlockId, (s.ast.blocks.get b).writePointer ≤ 64) ∧
  (∀ p : PageId, s.ast.pointer p ≤ (indexOf p).val → s.ast.pageState p = .erased ∨ s.ast.erasing (blockOf p) = true) ∧
  (∀ l, s.ast.unit = .programming l → s.ast.pageState l.page = .programming ∧ (indexOf l.page).val < s.ast.pointer l.page) ∧
  (∀ p : PageId, s.ast.erasing (blockOf p) = true → s.ast.pageState p = .erasing) ∧
  ∀ q, s.ast.holder = some q → s.ast.unit ≠ .idle ∧ s.ast.pageState q.page = .erased ∧
    s.ast.pointer q.page = (indexOf q.page).val + 1 ∧ s.ast.erasing (blockOf q.page) = false

/-- A law that every step keeps: whatever the state it holds in, it holds in the state that a step answers. -/
def keptByStep (law : State → Prop) : Prop := ∀ s t : State, law s → step s = .next t → law t

end Sys2Proof.Machine
end

