-- ==== Sys2Proof/Certificates/Slice0/Obligations.lean ====
section
/-! DEFINITION. The statements about the hub that are put to the provers. -/

open Sys2Proof Sys2Proof.Machine

/-! ### The queue, and what every request shares -/

/-- A step takes the command at the front of the queue and carries it out on the hub with the rest of the queue; on an empty
queue the hub idles (the model's own queue; idling is the model's choice, entry 2). -/
def Obligations.StepTakesTheFrontCommand : Prop :=
  (∀ (s : State) (c : Instr) (rest : List Instr), s.pending = c :: rest → step s = exec c { s with pending := rest }) ∧
  ∀ s : State, s.pending = [] → step s = .next s

/-- While the hub is held in reset it executes nothing and raises no slot event (R204), and frames that arrive are discarded
(R95, R133). That every command but the resets and the ends of the holds then leaves the hub as it is, completions included, is
the model's reading of R204 (entry 6). -/
def Obligations.HeldHubIgnoresCommands : Prop :=
  ∀ (s : State) (c : Instr), s.held = true → actsOnHeldHub c = false → exec c s = .next s

/-- The checks of R192 before a kind's own: a tag of 0 is answered MALFORMED, and a kind other than RDREC from a port that the
consumption of the slot in course has not settled ACTIVE (R191) is answered NOT_ACTIVE. And what an answer touches, which is the
model's, since it makes requests commands of their own (entry 4): the response stands for its port; where the frame of the port
settled ACTIVE carries no notice the oldest entry is taken into it with the lost flag, which is then clear; the frames of the slot
in course take the control cell, the level, the count of notices and the lost flag as they now stand; nothing else changes. -/
def Obligations.RequestsRefusedBeforeTheirKind : Prop :=
  (∀ (s : State) (c : Instr) (p : TrunkId) (tag code : Nat), asRequest c = some (p, tag, code) → s.held = false →
    (tag = 0 → exec c s = .next (s.answered p 0 code .malformed [])) ∧
    (tag ≠ 0 → code ≠ 1 → s.tif.settled ≠ some p → exec c s = .next (s.answered p tag code .notActive []))) ∧
  ∀ (s : State) (p : TrunkId) (tag code : Nat) (st : Status) (body : List Byte),
    let t := s.answered p tag code st body
    let due := fun q : TrunkId => s.tif.settled = some q ∧ (s.tif.out q).map (·.notice) = some none ∧ s.mga.queue ≠ []
    t.mga.response p = some ⟨tag, code, st, body⟩ ∧ t.mga.response (otherTrunk p) = s.mga.response (otherTrunk p) ∧
    t.mga.causes = s.mga.causes ∧ t.mga.restart = s.mga.restart ∧
    t.tif.a = s.tif.a ∧ t.tif.b = s.tif.b ∧ t.tif.settled = s.tif.settled ∧
    (∀ q : TrunkId, (t.tif.out q).map (fun f => (f.hfn, f.summary.ref, f.summary.active, f.lanes)) =
      (s.tif.out q).map fun f => (f.hfn, f.summary.ref, f.summary.active, f.lanes)) ∧
    (∀ (q : TrunkId) (f : UplinkFrame), t.tif.out q = some f → f.control = t.mga.response q ∧
      f.summary.level = max s.ict.latched s.ict.commanded ∧ f.summary.notices = t.mga.queue.length ∧ f.summary.lost = t.mga.lost) ∧
    (∀ q : TrunkId, due q → t.mga.queue = s.mga.queue.tail ∧ t.mga.lost = false ∧
      (t.tif.out q).map (·.notice) = some (s.mga.queue.head?.map fun e => ⟨e, s.mga.lost⟩)) ∧
    ((∀ q : TrunkId, ¬due q) → t.mga.queue = s.mga.queue ∧ t.mga.lost = s.mga.lost) ∧
    (∀ q : TrunkId, ¬due q → (t.tif.out q).map (·.notice) = (s.tif.out q).map (·.notice)) ∧
    t.fps = s.fps ∧ t.ctb = s.ctb ∧ t.lal = s.lal ∧ t.dmx = s.dmx ∧ t.sif = s.sif ∧ t.ucb = s.ucb ∧ t.bku = s.bku ∧
    t.ast = s.ast ∧ t.ict = s.ict ∧ t.pins = s.pins ∧ t.pending = s.pending

/-- RDREC, from a port in any role, changes nothing but the answer (R196): the part asked for of the record as it stands, in
parts of 41 bytes behind a byte that counts them, at least one (R210); a part beyond them is RANGE; what the selector refuses
is answered with its status. And what the record of every selector holds, field by field: carrier (R5, R113), placement (R17: NOT_FOUND
for a FREE carrier and outside its set), group (R45, R67), lane (R45, R113), remote, side context and span port (R94), trunk port and
reference (R132), player and queue position (R159: NOT_FOUND at or beyond the queue's length), block, page, status, message and
settings of the store (R179), profile row and incident state (R189), reset causes (R202); a number out of a selector's range is refused
RANGE (R195). Where R210 leaves the layout open it is the model's (entry 13: a composite that may be absent has one presence byte, the
trims of a carrier are a counted list ascending by group, a yes or no reads 1 for yes, of the last sample asserted reads 0, the last slot
closed and the ACTIVE port may be absent, the write unit's page and block are two fields, a
block's being erased, holding a PROGRAMMING page and holding the held page are three yes or no bytes, a field that two rules name stands once), and
so is HFN 0 before the first slot event (entry 4). -/
def Obligations.ReadAnswersAPartAndChangesNothing : Prop :=
  (∀ (s : State) (p : TrunkId) (tag : Nat) (sel : Selector) (part : Nat), s.held = false → tag ≠ 0 →
    (∀ st, s.record sel = .refused st → exec (.rdrec p tag sel part) s = .next (s.answered p tag 1 st [])) ∧
    (∀ bs, s.record sel = .record bs →
      (part < max 1 ((bs.length + 40) / 41) → exec (.rdrec p tag sel part) s =
        .next (s.answered p tag 1 .ok (be 1 (max 1 ((bs.length + 40) / 41)) ++ (bs.drop (41 * part)).take 41))) ∧
      (max 1 ((bs.length + 40) / 41) ≤ part → exec (.rdrec p tag sel part) s = .next (s.answered p tag 1 .range [])))) ∧
  ∀ s : State,
    let bit := fun b : Bool => be 1 (if b then 1 else 0)
    let opt := fun (width : Nat) (x : Option Nat) => bit x.isSome ++ be width (x.getD 0)
    let sideNo := fun sd : Side => match sd with
      | .a => 0
      | .b => 1
    let words := fun xs : List Nat => xs.flatMap (be 4)
    let hfn := fun x : Option FrameNo => opt 2 (x.map (·.toNat))
    let composite := fun (width : Nat) (x : Option (List Byte)) => bit x.isSome ++ x.getD (be width 0)
    let listed := fun xs : List (List Byte) => be 1 xs.length ++ xs.flatten
    let destNo := fun t : Option TrunkLane => be 1 ((t.map (·.val)).getD 255)
    let laneNo := fun st : LaneState => match st with
      | .free => 0
      | .guard => 1
      | .live => 2
    let request := fun q : AnnRequest => be 1 q.tag ++ be 1 (match q.message with
        | .stored m => m.val
        | .live => 255) ++
      be 1 q.priority ++ be 1 q.plays ++ be 2 q.gap ++ be 1 q.zones.toNat ++ (match q.carriers with
        | .all => be 1 1 ++ be 8 0
        | .only cs => be 1 0 ++ be 8 cs.toNat) ++ be 2 q.playsDone
    let held := s.bku.queue.length + (if s.bku.bp0.request.isSome then 1 else 0) + (if s.bku.bp1.request.isSome then 1 else 0)
    let result := fun o : HistoryResult => match o with
      | .program q x => be 1 0 ++ be 2 q.val ++ be 1 (if x = .pass then 0 else 1)
      | .erase b x => be 1 1 ++ be 2 b.val ++ be 1 (if x = .pass then 0 else 1)
    (∀ c : CarrierId,
      let r := s.ctb.get c
      let f := r.fields
      s.record (.carrier c.val) = .record (be 1 (match r.state with
          | .free => 0
          | .defined => 1
          | .active => 2) ++
        be 1 (match f.kind with
          | .mobile => 0
          | .rescue => 1
          | .broadcast => 2) ++
        be 2 f.rfCode ++ destNo f.dlSource ++ destNo f.ulDest ++
        be 1 ((List.finRange 8).map fun g => if (r.placements.get g).isSome then 2 ^ g.val else 0).sum ++
        be 2 f.dlGain ++ be 2 f.ulGain ++ be 4 f.sqOpen ++ be 4 f.sqClose ++ be 2 f.hang ++ be 1 f.rank ++
        be 1 (match f.talkMode with
          | .off => 0
          | .auto => 1
          | .on => 2) ++
        be 2 f.talkGain ++ bit f.eligible ++ bit f.startActive ++
        listed ((List.finRange 8).filterMap fun g => (r.placements.get g).map fun q => be 2 q.trim) ++
        listed ((s.ucb.history.get c).map fun e => be 2 e.hfn.toNat) ++
        composite 4 ((s.ucb.lastClose.get c).map fun x => be 2 x.hfn.toNat ++ be 1 x.contributions ++ be 1 x.saturated) ++
        hfn s.ucb.lastClosed) ∧
      ∀ g : GroupId,
        (r.state = .free ∨ r.placements.get g = none → s.record (.placement c.val g.val) = .refused .notFound) ∧
        ∀ q : Placement, r.state ≠ .free → r.placements.get g = some q →
          let x := s.lal.get g
          let lane := if q.state = some .held then
            (List.finRange 32).find? fun l => (x.lanes.get l).owner == some c else none
          s.record (.placement c.val g.val) = .record (opt 1 (q.state.map fun st => match st with
              | .waiting => 0
              | .held => 1
              | .shed => 2) ++
            be 2 q.trim ++ opt 1 (lane.map (·.val)) ++ opt 1 (lane.map fun l => laneNo (x.lanes.get l).state) ++
            opt 1 (if q.state = some .waiting then x.waiting.findIdx? (· == c) else none))) ∧
    (∀ g : GroupId,
      let x := s.lal.get g
      let m := s.dmx.get g
      let lanes := fun st : LaneState => be 1 ((List.finRange 32).filter fun l => (x.lanes.get l).state = st).length
      let waits := fun k : CarrierKind => be 1 (x.waiting.filter fun c => (s.ctb.get c).fields.kind = k).length
      s.record (.group g.val) = .record (be 1 (match x.config.form with
          | .unused => 0
          | .chain => 1
          | .ring => 2) ++
        be 1 x.config.remotes ++ be 5 x.config.ceiling ++ be 2 x.config.floor ++ be 1 x.config.guard ++ be 2 x.config.missLimit ++
        lanes .free ++ lanes .guard ++ lanes .live ++ be 1 x.waiting.length ++ waits .rescue ++ waits .broadcast ++ waits .mobile ++
        be 2 m.factor ++ be 5 m.envelope ++ be 1 (match m.episode with
          | .quiet => 0
          | .over => 1
          | .reported => 2) ++
        be 1 m.run ++ bit m.protectedOver ++
        composite 16 (m.last.map fun u => be 5 u.power ++ be 5 u.protPower ++ be 1 u.derate ++ be 5 u.ceiling) ++
        hfn (m.last.map (·.hfn))) ∧
      ∀ l : LaneId,
        let y := x.lanes.get l
        s.record (.lane g.val l.val) = .record (be 1 (laneNo y.state) ++ opt 1 (y.owner.map (·.val)) ++ be 1 y.guardCount ++
          be 1 (match y.player with
            | none => 0
            | some .bp0 => 1
            | some .bp1 => 2) ++
          ((List.finRange 6).flatMap fun k =>
            let q := ((s.ucb.gates.get g).get l).get k
            be 1 (match q.state with
              | .closed => 0
              | .opened => 1
              | .hang => 2) ++ be 2 q.hang) ++
          hfn s.ucb.lastClosed)) ∧
    (∀ n m : Nat, (64 ≤ n → s.record (.carrier n) = .refused .range) ∧
      (64 ≤ n ∨ 8 ≤ m → s.record (.placement n m) = .refused .range) ∧ (8 ≤ n → s.record (.group n) = .refused .range) ∧
      (8 ≤ n ∨ 32 ≤ m → s.record (.lane n m) = .refused .range)) ∧
    (∀ (id : PlayerId) (n : Nat), codePlayer n = some id →
      let p := s.bku.player id
      let v := s.bku.params
      s.record (.player n) = .record (be 1 (match p.state with
          | .idle => 0
          | .fadeIn => 1
          | .playing => 2
          | .gap => 3
          | .fadeOut => 4) ++
        composite 18 (p.request.map request) ++
        opt 1 (p.intent.map fun i => match i with
          | .finish .completed => 0
          | .finish .cancelled => 1
          | .finish .sourceLost => 2
          | .requeue => 3) ++
        be 2 p.fade ++ be 2 p.phase.toNat ++ be 3 p.progress ++ be 2 p.gapLeft ++ be 2 p.liveMiss ++ be 2 p.covered ++
        be 1 v.deviation ++ be 2 v.amplitude ++ be 2 v.fadeStep ++ be 2 v.liveGain ++ be 1 held ++ hfn s.bku.lastWork)) ∧
    (∀ n : Nat, (2 ≤ n → s.record (.player n) = .refused .range) ∧ (15 < n → s.record (.queuePosition n) = .refused .range) ∧
      (n ≤ 15 → s.bku.queue[n]? = none → s.record (.queuePosition n) = .refused .notFound) ∧
      ∀ q : AnnRequest, n ≤ 15 → s.bku.queue[n]? = some q → s.record (.queuePosition n) = .record (request q ++
        bit (decide (q.priority < s.ict.row.announceMask)) ++ be 1 s.bku.queue.length ++ be 1 held ++ hfn s.bku.lastWork)) ∧
    (∀ b : BlockId,
      let x := s.ast.blocks.get b
      let pages := fun st : PageState => be 1 ((List.finRange 64).filter fun k => x.pages.get k = st).length
      s.record (.storeBlock b.val) = .record (be 1 (match x.guard with
          | .opened => 0
          | .eraseBarred => 1
          | .writeBarred => 2
          | .barred => 3) ++
        be 1 x.writePointer ++ be 2 x.eraseCount ++
        (pages .erased ++ pages .programming ++ pages .programmed ++ pages .failed ++ pages .erasing) ++
        bit (match s.ast.unit with
          | .erasing c => decide (c = b)
          | _ => false) ++
        bit (match s.ast.unit with
          | .programming l => decide (blockOf l.page = b)
          | _ => false) ++
        bit (s.ast.holder.any fun l => blockOf l.page == b))) ∧
    (∀ (q : PageId) (off count : Nat), off ≤ 511 → 1 ≤ count → count ≤ 32 → off + count ≤ 512 →
      let sample := fun k : Nat => match s.ast.pageState q with
        | .programmed => s.ast.memory.read (512 * q.val + (off + k))
        | .failed => 0
        | _ => 255
      s.record (.storePage q.val off count) = .record (be 1 (match s.ast.pageState q with
          | .erased => 0
          | .programming => 1
          | .programmed => 2
          | .failed => 3
          | .erasing => 4) ++
        listed ((List.range count).map fun k => [sample k]))) ∧
    (∀ n off count : Nat, (32 ≤ n → s.record (.storeBlock n) = .refused .range) ∧
      (2048 ≤ n ∨ 511 < off ∨ count = 0 ∨ 32 < count ∨ 512 < off + count →
        s.record (.storePage n off count) = .refused .range)) ∧
    s.record .storeStatus = .record ((match s.ast.unit with
        | .idle => be 1 0 ++ opt 2 none ++ opt 1 none
        | .programming l => be 1 1 ++ opt 2 (some l.page.val) ++ opt 1 none
        | .erasing b => be 1 2 ++ opt 2 none ++ opt 1 (some b.val)) ++
      opt 2 (s.ast.holder.map fun l => l.page.val) ++ bit s.ast.buffer.isSome ++ opt 2 (s.ast.buffer.map fun l => l.page.val) ++
      composite 4 (s.ast.last.map result) ++ composite 4 (s.ast.previous.map result)) ∧
    (∀ (g : GroupId) (k : Pos),
      let r := (s.sif.remotes.get g).get k
      let cfg := configOf s.lal g
      s.record (.remote g.val (k.val + 1)) = .record (bit (cfg.form != .unused && decide (k.val < cfg.remotes)) ++
        be 1 (sideNo r.feed) ++ bit r.inService ++ opt 1 (r.headroom.map (·.toNat)) ++
        opt 1 (r.radiator.map fun x => match x with
          | .ok => 0
          | .feederFault => 1
          | .paOff => 2)) ∧
      ∀ sd : Side, let c := r.ctx sd
        s.record (.context g.val (k.val + 1) (sideNo sd)) = .record (be 1 (match c.state with
            | .idle => 0
            | .waiting => 1
            | .tracking => 2) ++
          opt 1 (c.reason.map fun x => match x with
            | .new => 0
            | .order => 1
            | .silent => 2) ++
          be 1 c.expCount.toNat ++ be 2 c.expEcho.toNat ++ be 2 c.missRun ++
          words [c.accepted, c.orderFaults, c.late, c.unstarted])) ∧
    (∀ n m d : Nat, (8 ≤ n ∨ m = 0 ∨ 6 < m → s.record (.remote n m) = .refused .range) ∧
      (8 ≤ n ∨ m = 0 ∨ 6 < m ∨ 2 ≤ d → s.record (.context n m d) = .refused .range)) ∧
    (∀ q : SpanId, let x := s.sif.ports.get q
      s.record (.spanPort q.val) = .record (bit (servedBy s.lal q).isSome ++ opt 1 ((servedBy s.lal q).map (·.1.val)) ++
        opt 1 ((servedBy s.lal q).map fun v => sideNo v.2) ++
        be 1 (match x.link with
          | .down => 0
          | .aligning => 1
          | .up => 2) ++
        be 1 x.goodRun ++ be 1 x.badRun ++ be 1 x.quiet ++
        words [x.goodFrames, x.frameFaults, x.missedSlots, x.sectionFaults, x.unknownSections])) ∧
    (∀ n : Nat, 8 ≤ n → s.record (.spanPort n) = .refused .range) ∧
    (∀ (p : TrunkId) (n : Nat), codeTrunk n = some p → let x := s.tif.port p
      s.record (.trunkPort n) = .record (be 1 (match x.link with
          | .down => 0
          | .acquiring => 1
          | .up => 2) ++
        be 1 (match x.role with
          | .active => 0
          | .standby => 1
          | .none => 2) ++
        be 1 x.fifo.length ++ be 1 x.goodRun ++ be 1 x.badRun ++ opt 2 (x.lastTfn.map (·.toNat)) ++
        words [x.goodFrames, x.checkFaults, x.misses, x.slips, x.tfnGaps])) ∧
    (∀ n : Nat, 2 ≤ n → s.record (.trunkPort n) = .refused .range) ∧
    s.record .reference = .record (be 2 (s.fps.hfn.getD 0).toNat ++ be 1 (match s.fps.ref with
        | .locked => 0
        | .holdover => 1
        | .freeRun => 2) ++
      words [s.fps.holdCount, s.fps.holdLimit] ++ be 1 (BitVec.ofInt 8 s.fps.trim).toNat ++
      opt 1 (if s.tif.a.role = .active then some 0 else if s.tif.b.role = .active then some 1 else none)) ∧
    (∀ m : MessageId, let e := s.ast.messages.get m
      s.record (.message m.val) = .record (bit e.isSome ++ opt 2 (e.map (·.first)) ++ opt 2 (e.map (·.count)) ++
        opt 2 (e.map (·.gain)) ++ be 1 (s.bku.held.filter fun r => r.message == .stored m).length)) ∧
    (∀ n : Nat, 48 ≤ n → s.record (.message n) = .refused .range) ∧
    s.record .settingsState = .record (bit s.ast.settings.isSome ++ bit s.ast.saving.isSome) ∧
    (∀ k : Level, let r := s.ict.profile.get k
      s.record (.profileRow k.val) = .record (be 1 r.announceMask ++ bit r.talkAuto ++ bit r.broadcastPreempt ++ be 1 r.shedRank ++
        bit r.protectBreakIn ++ bit (decide (k = max s.ict.latched s.ict.commanded)))) ∧
    (∀ n : Nat, 4 ≤ n → s.record (.profileRow n) = .refused .range) ∧
    s.record .incidentState = .record (bit (!s.ict.asserted) ++ be 1 s.ict.run ++ be 1 s.ict.latched.val ++
      be 1 s.ict.commanded.val ++ be 1 (max s.ict.latched s.ict.commanded).val ++ be 1 s.ict.lineLevel.val ++
      opt 2 (s.ict.sampleHfn.map (·.toNat))) ∧
    s.record .resetCauses = .record (bit s.mga.causes.powerOn ++ bit s.mga.causes.line ++ bit s.mga.causes.restart ++
      be 1 (match s.mga.causes.last with
        | .powerOn => 0
        | .line => 1
        | .restartKeep => 2
        | .restartReload => 3
        | .none => 4) ++
      be 1 s.mga.causes.count ++ bit s.mga.restart.isSome ++ opt 1 (s.mga.restart.map fun f => match f with
        | .keep => 0
        | .reload => 1))

/-! ### Carriers (chapter 1) -/

/-- A CARSET whose codes all name something, on a carrier that is FREE or DEFINED, writes every field, forced and clamped,
keeps the placement records of groups that stay in the set, gives new ones trim 4096, and makes the carrier DEFINED; the
answer lists what was stored otherwise than supplied (R7, R9). Any code that names nothing is answered RANGE. -/
def Obligations.CarsetWritesTheRecord : Prop :=
  ∀ (s : State) (p : TrunkId) (tag : Nat) (a : CarsetArgs), s.hears p tag →
    (∀ (c : CarrierId) (k : CarrierKind) (m : TalkMode) (el st : Bool) (src dst : Option TrunkLane),
      a.carrier = c.val → codeKind a.kind = some k → codeTalk a.talkMode = some m → codeBool a.eligible = some el →
      codeBool a.startActive = some st → codeTrunkLane a.dlSource = some src → codeTrunkLane a.ulDest = some dst →
      a.rfCode ≤ 4095 → (k = .broadcast → dst = none) → (s.ctb.get c).state ≠ .active →
      let f : CarrierFields :=
        { kind := k, rfCode := a.rfCode, dlSource := src, ulDest := dst, dlGain := a.dlGain, ulGain := a.ulGain,
          sqOpen := min a.sqOpen 2147483648, sqClose := min a.sqClose (min a.sqOpen 2147483648), hang := a.hang,
          rank := if k = .mobile then min a.rank 15 else 0, talkMode := if k = .rescue then m else .off,
          talkGain := if k = .rescue then a.talkGain else 4096, eligible := if k = .broadcast then el else false,
          startActive := st }
      let sets : Table (Option Placement) 8 := .make fun g =>
        if a.groups.testBit g.val then some ((((s.ctb.get c).placements.get g)).getD ⟨none, 4096⟩) else none
      exec (.carset p tag a) s = .next (({ s with ctb := s.ctb.put c ⟨.defined, f, sets⟩ } : State).answered p tag 2 .ok
        (changedFields [(8, f.sqOpen != a.sqOpen), (9, f.sqClose != a.sqClose), (11, f.rank != a.rank),
          (12, f.talkMode.code != a.talkMode), (13, f.talkGain != a.talkGain), (14, yes f.eligible != a.eligible)]))) ∧
    (64 ≤ a.carrier ∨ codeKind a.kind = none ∨ codeTalk a.talkMode = none ∨ codeBool a.eligible = none ∨
        codeBool a.startActive = none ∨ codeTrunkLane a.dlSource = none ∨ codeTrunkLane a.ulDest = none ∨ 4095 < a.rfCode ∨
        (codeKind a.kind = some .broadcast ∧ codeTrunkLane a.ulDest ≠ some none) →
      exec (.carset p tag a) s = .next (s.answered p tag 2 .range []))

/-- A CARSET on an ACTIVE carrier changes live fields alone: where a structural field differs from the stored one it is
refused STATE; else every live field takes its new value, forced and clamped, the carrier stays ACTIVE with its placements, the
answer lists what was stored otherwise than supplied, and nothing outside its fields changes (R10, R7, R9). -/
def Obligations.CarsetOnActiveCarrierKeepsStructure : Prop :=
  ∀ (s : State) (p : TrunkId) (tag : Nat) (a : CarsetArgs) (c : CarrierId) (v : CarsetNamed), s.hears p tag →
    a.carrier = c.val → carsetNamed a = some v → (s.ctb.get c).state = .active →
    let old := (s.ctb.get c).fields
    ((v.kind ≠ old.kind ∨ a.rfCode ≠ old.rfCode ∨ v.dlSource ≠ old.dlSource ∨ v.ulDest ≠ old.ulDest ∨
        ∃ g : GroupId, a.groups.testBit g.val ≠ ((s.ctb.get c).placements.get g).isSome) →
      exec (.carset p tag a) s = .next (s.answered p tag 2 .state [])) ∧
    ((v.kind = old.kind ∧ a.rfCode = old.rfCode ∧ v.dlSource = old.dlSource ∧ v.ulDest = old.ulDest ∧
        ∀ g : GroupId, a.groups.testBit g.val = ((s.ctb.get c).placements.get g).isSome) →
      let f : CarrierFields :=
        { kind := old.kind, rfCode := old.rfCode, dlSource := old.dlSource, ulDest := old.ulDest, dlGain := a.dlGain,
          ulGain := a.ulGain, sqOpen := min a.sqOpen 2147483648, sqClose := min a.sqClose (min a.sqOpen 2147483648), hang := a.hang,
          rank := if old.kind = .mobile then min a.rank 15 else 0, talkMode := if old.kind = .rescue then v.talkMode else .off,
          talkGain := if old.kind = .rescue then a.talkGain else 4096,
          eligible := if old.kind = .broadcast then v.eligible else false, startActive := v.startActive }
      exec (.carset p tag a) s =
        .next (({ s with ctb := s.ctb.put c ⟨.active, f, (s.ctb.get c).placements⟩ } : State).answered p tag 2 .ok
          (changedFields [(8, f.sqOpen != a.sqOpen), (9, f.sqClose != a.sqClose), (11, f.rank != a.rank),
            (12, f.talkMode.code != a.talkMode), (13, f.talkGain != a.talkGain), (14, yes f.eligible != a.eligible)])))

/-- CARON (R12, R13): a number out of range is RANGE, a carrier that is not DEFINED STATE, an empty placement set RANGE, a
group of the set that is UNUSED STATE, an uplink destination that another ACTIVE carrier has IN_USE. Else the carrier is
ACTIVE and its placements are entered group by group: SHED where it is MOBILE and its rank reaches the shed rank, else WAITING at
the tail of its class with one run of the group's arbiter, each keeping its trim; the answer counts them and gives for each, in
ascending group number, its state and the lane where HELD (the bytes are the model's: a state byte and the lane as a field that may be
absent, entry 13). Nothing else changes.
A run of the arbiter (R35 to R38): the grant step gives the lowest FREE lane to the head of the list while there is one; the
preempt step walks the list as it then stands, an entry that may preempt taking the lane of the MOBILE owner of greatest rank,
and of equal ranks the highest lane, and ending the step where there is none. A lane given is in GUARD with the retune guard and
closed gates; a victim waits at the head of the MOBILE class. -/
def Obligations.CaronActivatesTheCarrier : Prop :=
  (∀ (s : State) (p : TrunkId) (tag : Nat) (c : CarrierId), s.hears p tag →
    let r := s.ctb.get c
    let defined := r.state = .defined
    let anyGroup := ∃ g : GroupId, (r.placements.get g).isSome
    let served := ∀ g : GroupId, (r.placements.get g).isSome → (configOf s.lal g).form ≠ .unused
    let ownDest := ∀ d : CarrierId, d ≠ c → (s.ctb.get d).state = .active → r.fields.ulDest.isSome →
      (s.ctb.get d).fields.ulDest ≠ r.fields.ulDest
    (∀ n : Nat, 64 ≤ n → exec (.caron p tag n) s = .next (s.answered p tag 3 .range [])) ∧
    (¬defined → exec (.caron p tag c.val) s = .next (s.answered p tag 3 .state [])) ∧
    (defined → ¬anyGroup → exec (.caron p tag c.val) s = .next (s.answered p tag 3 .range [])) ∧
    (defined → anyGroup → ¬served → exec (.caron p tag c.val) s = .next (s.answered p tag 3 .state [])) ∧
    (defined → anyGroup → served → ¬ownDest → exec (.caron p tag c.val) s = .next (s.answered p tag 3 .inUse [])) ∧
    (defined → anyGroup → served → ownDest →
      let groups := (List.finRange 8).filter fun g => (r.placements.get g).isSome
      let enter := fun (b : Alloc) (g : GroupId) =>
        if r.fields.kind = .mobile ∧ s.ict.row.shedRank ≤ r.fields.rank then b.setPlacement c g (some .shed)
        else Alloc.arbiter g s.ict.row ((b.setPlacement c g (some .waiting)).joinTail g c)
      let b := groups.foldl enter ⟨s.ctb.edit c fun x => { x with state := .active }, s.lal, s.ucb.gates, []⟩
      let t : State := { s with
        ctb := b.ctb, lal := b.lal, mga := s.mga.raiseAll b.out
        ucb := { s.ucb with gates := b.gates, lastClose := s.ucb.lastClose.put c none } }
      exec (.caron p tag c.val) s =
          .next (t.answered p tag 3 .ok (be 1 groups.length ++ groups.flatMap fun g =>
            let lane := (List.finRange 32).find? fun l => (b.lane g l).owner == some c
            match b.placementState c g, lane with
            | some .held, some l => [1, 1, BitVec.ofNat 8 l.val]
            | some .held, none => [1, 0, 0]
            | some .shed, _ => [2, 0, 0]
            | _, _ => [0, 0, 0])) ∧
        (t.ctb.get c).state = .active ∧
        (∀ d : CarrierId, (t.ctb.get d).fields = (s.ctb.get d).fields ∧ (d ≠ c → (t.ctb.get d).state = (s.ctb.get d).state) ∧
          ∀ g : GroupId, ((t.ctb.get d).placements.get g).map (·.trim) = ((s.ctb.get d).placements.get g).map (·.trim)) ∧
        (∀ g : GroupId, ((s.ctb.get c).placements.get g).isSome →
          if (s.ctb.get c).fields.kind = .mobile ∧ s.ict.row.shedRank ≤ (s.ctb.get c).fields.rank then
            t.alloc.placementState c g = some .shed ∧ t.lal.get g = s.lal.get g
          else t.alloc.placementState c g = some .waiting ∨ t.alloc.placementState c g = some .held) ∧
        (∀ g : GroupId, (configOf t.lal g) = (configOf s.lal g)) ∧
        ∀ g : GroupId, ((s.ctb.get c).placements.get g) = none → t.lal.get g = s.lal.get g ∧ t.ucb.gates.get g = s.ucb.gates.get g)) ∧
  ∀ (a : Alloc) (g : GroupId) (row : ProfileRow) (c : CarrierId) (rest : List CarrierId),
    let given := Alloc.grantStep g (a.waiting g) a
    let kindOf := fun d : CarrierId => (a.ctb.get d).fields.kind
    let rankOf := fun d : CarrierId => (a.ctb.get d).fields.rank
    let mobileAt := fun (l : LaneId) (v : CarrierId) =>
      (a.lane g l).state ≠ .free ∧ (a.lane g l).owner = some v ∧ kindOf v = .mobile
    let mayPreempt := kindOf c = .rescue ∨ (kindOf c = .broadcast ∧ row.broadcastPreempt = true)
    a.arbiter g row = Alloc.preemptStep g row (given.waiting g) given ∧
    ((∀ l : LaneId, (a.lane g l).state ≠ .free) → Alloc.grantStep g (c :: rest) a = a) ∧
    (∀ l : LaneId, (a.lane g l).state = .free → (∀ m : LaneId, m < l → (a.lane g m).state ≠ .free) →
      Alloc.grantStep g (c :: rest) a = Alloc.grantStep g rest (a.give g l c)) ∧
    (¬mayPreempt → Alloc.preemptStep g row (c :: rest) a = Alloc.preemptStep g row rest a) ∧
    (mayPreempt → (∀ (l : LaneId) (v : CarrierId), ¬mobileAt l v) → Alloc.preemptStep g row (c :: rest) a = a) ∧
    (∀ (l : LaneId) (v : CarrierId), mayPreempt → mobileAt l v →
      (∀ (m : LaneId) (w : CarrierId), mobileAt m w → rankOf w < rankOf v ∨ (rankOf w = rankOf v ∧ m ≤ l)) →
      Alloc.preemptStep g row (c :: rest) a = Alloc.preemptStep g row rest (a.handOver g l v c)) ∧
    (∀ l : LaneId, a.give g l c =
      { ctb := a.ctb.edit c fun x => { x with placements := x.placements.edit g fun q => q.map fun y => { y with state := some .held } }
        lal := a.lal.edit g fun x => { x with
          lanes := x.lanes.put l ⟨.guard, some c, x.config.guard, none⟩
          waiting := x.waiting.filter fun d => d != c }
        gates := a.gates.edit g fun x => x.put l (.fill ⟨.closed, 0⟩)
        out := a.out ++ [.placement c g .granted (some l)] }) ∧
    ∀ (l : LaneId) (v : CarrierId),
      let ahead := fun d : CarrierId => kindOf d != .mobile
      let waits : Alloc := { a with
        ctb := a.ctb.edit v fun x => { x with placements := x.placements.edit g fun q => q.map fun y => { y with state := some .waiting } }
        lal := a.lal.edit g fun x => { x with waiting := x.waiting.takeWhile ahead ++ v :: x.waiting.dropWhile ahead } }
      a.handOver g l v c = { waits.give g l c with out := (waits.give g l c).out ++ [.placement v g .preempted (some l)] }

/-- A CAROFF on a carrier that is not ACTIVE is STATE, and one that names none RANGE. Else it releases the carrier, group by
group: a lane it owns is FREE with closed gates, a list entry leaves, the placement has no state, and where it had a lane or an
entry the group's arbiter runs (R14, R32). The carrier is then DEFINED with its fields and trims, no lane has it for owner, no list
names it, and its talk-through history is empty (R109); that its last close stands is the model's inference (entry 18). Groups
outside its set keep their lanes and lists, and nothing else changes. -/
def Obligations.CaroffReleasesTheCarrier : Prop :=
  ∀ (s : State) (p : TrunkId) (tag : Nat) (c : CarrierId), s.hears p tag →
    (∀ n : Nat, 64 ≤ n → exec (.caroff p tag n) s = .next (s.answered p tag 4 .range [])) ∧
    ((s.ctb.get c).state ≠ .active → exec (.caroff p tag c.val) s = .next (s.answered p tag 4 .state [])) ∧
    (s.placementsOk → (s.ctb.get c).state = .active →
      let free := fun (b : Alloc) (g : GroupId) (l : LaneId) => { b with
        lal := b.lal.edit g fun x => { x with lanes := x.lanes.put l ⟨.free, none, 0, none⟩ }
        gates := b.gates.edit g fun x => x.put l (.fill ⟨.closed, 0⟩) }
      let leave := fun (b : Alloc) (g : GroupId) =>
        match b.placementState c g with
        | some .held => Alloc.arbiter g s.ict.row ((((b.laneOf g c).map (free b g)).getD b).setPlacement c g none)
        | some .waiting => Alloc.arbiter g s.ict.row ((b.setWaiting g ((b.waiting g).filter fun d => d != c)).setPlacement c g none)
        | _ => b.setPlacement c g none
      let b := ((List.finRange 8).filter fun g => ((s.ctb.get c).placements.get g).isSome).foldl leave s.alloc
      let t : State := { s with
        ctb := b.ctb.edit c fun x => { x with state := .defined }
        lal := b.lal, mga := s.mga.raiseAll b.out
        ucb := { s.ucb with gates := b.gates, history := s.ucb.history.put c [] } }
      exec (.caroff p tag c.val) s = .next (t.answered p tag 4 .ok []) ∧
        (t.ctb.get c).state = .defined ∧
        (∀ g : GroupId, t.alloc.placementState c g = none ∧ c ∉ t.alloc.waiting g ∧
          ∀ l : LaneId, (t.alloc.lane g l).owner ≠ some c) ∧
        (∀ d : CarrierId, (t.ctb.get d).fields = (s.ctb.get d).fields ∧ (d ≠ c → (t.ctb.get d).state = (s.ctb.get d).state) ∧
          ∀ g : GroupId, ((t.ctb.get d).placements.get g).map (·.trim) = ((s.ctb.get d).placements.get g).map (·.trim)) ∧
        (∀ g : GroupId, (configOf t.lal g) = (configOf s.lal g)) ∧
        ∀ g : GroupId, ((s.ctb.get c).placements.get g) = none → t.lal.get g = s.lal.get g ∧ t.ucb.gates.get g = s.ucb.gates.get g)

/-- CARCLR makes a DEFINED carrier FREE with the values of R8 and no placement record, leaves a FREE one, and is refused STATE
on an ACTIVE one (R15). TRIM stores a placement's trim, held at 8192, in the carrier's set, and is refused STATE on a FREE
carrier or for a group outside the set (R18). A number out of range is RANGE. Neither changes anything else. -/
def Obligations.CarclrAndTrimActOnOneRecord : Prop :=
  ∀ (s : State) (p : TrunkId) (tag : Nat) (c : CarrierId), s.hears p tag →
    (∀ n : Nat, 64 ≤ n → exec (.carclr p tag n) s = .next (s.answered p tag 5 .range [])) ∧
    (∀ n m v : Nat, 64 ≤ n ∨ 8 ≤ m → exec (.trim p tag n m v) s = .next (s.answered p tag 6 .range [])) ∧
    exec (.carclr p tag c.val) s = .next (match (s.ctb.get c).state with
      | .free => s.answered p tag 5 .ok []
      | .defined => ({ s with ctb := s.ctb.put c ⟨.free, ⟨.mobile, 0, none, none, 4096, 4096, 0, 0, 0, 0, .off, 4096, false, false⟩,
          .fill none⟩ } : State).answered p tag 5 .ok []
      | .active => s.answered p tag 5 .state []) ∧
    ∀ (g : GroupId) (v : Nat), exec (.trim p tag c.val g.val v) s = .next (match (s.ctb.get c).placements.get g with
      | none => s.answered p tag 6 .state []
      | some q =>
        if (s.ctb.get c).state = .free then s.answered p tag 6 .state []
        else ({ s with ctb := s.ctb.edit c fun r => { r with placements := r.placements.put g (some { q with trim := min v 8192 }) } } : State).answered
          p tag 6 .ok (if 8192 < v then [1, 2] else [0]))

/-! ### Groups and spans (chapters 2 and 4) -/

/-- A GRPSET with a group, form code or remote count out of range is RANGE, and so is a RING on an odd group; a RING whose next
group is not UNUSED, and any used form on the odd group behind a RING, is STATE (the checks of R24 before the last). One that
repeats the stored form and remote count is accepted whatever is ACTIVE in the group, and changes the four tuning fields,
clamped, and the limiter factor, raised where it lies below the new floor (R26, R64; at once in an UNUSED group too, entry 28). -/
def Obligations.GrpsetTunesABusyGroup : Prop :=
  ∀ (s : State) (p : TrunkId) (tag : Nat) (a : GrpsetArgs), s.hears p tag →
    (8 ≤ a.group ∨ codeForm a.form = none ∨ a.remotes = 0 ∨ 6 < a.remotes →
      exec (.grpset p tag a) s = .next (s.answered p tag 7 .range [])) ∧
    (∀ (g : GroupId) (form : GroupForm), a.group = g.val → codeForm a.form = some form → 1 ≤ a.remotes → a.remotes ≤ 6 →
      (form = .ring → g.val % 2 = 1 → exec (.grpset p tag a) s = .next (s.answered p tag 7 .range [])) ∧
      (form = .ring → g.val % 2 = 0 → (∃ h : GroupId, h.val = g.val + 1 ∧ (configOf s.lal h).form ≠ .unused) →
        exec (.grpset p tag a) s = .next (s.answered p tag 7 .state [])) ∧
      (form = .chain → g.val % 2 = 1 → (∃ h : GroupId, h.val + 1 = g.val ∧ (configOf s.lal h).form = .ring) →
        exec (.grpset p tag a) s = .next (s.answered p tag 7 .state []))) ∧
    ∀ g : GroupId, a.group = g.val →
      formsAgree (fun x => (configOf s.lal x).form) → codeForm a.form = some (configOf s.lal g).form →
      a.remotes = (configOf s.lal g).remotes → 1 ≤ a.remotes → a.remotes ≤ 6 →
      let cfg : GroupConfig := { configOf s.lal g with
        ceiling := min a.ceiling (2 ^ 36 - 1), floor := min a.floor 4096, guard := max 8 (min a.guard 255),
        missLimit := max 8 (min a.missLimit 1024) }
      exec (.grpset p tag a) s = .next (({ s with
          lal := s.lal.edit g fun x => { x with config := cfg }
          dmx := s.dmx.edit g fun x => { x with factor := max x.factor cfg.floor } } : State).answered p tag 7 .ok
        (changedFields [(3, cfg.ceiling != a.ceiling), (4, cfg.floor != a.floor), (5, cfg.guard != a.guard),
          (6, cfg.missLimit != a.missLimit)]))

/-- A GRPSET that changes the form or the remote count is refused STATE while a carrier ACTIVE in the group, and otherwise,
where the form is allowed, sets up the group's remotes anew (R24, R25): every record and context new, the group's sections
discarded, and the ports that cease to be enabled DOWN, with SPAN_STATE where they were not. Other groups, lanes and carriers stay
as they are. The model's: that the counters of such a port stand (inferred, entry 17), the zero values of the contexts (entry 29),
the order of the SPAN_STATE notices (entry 3), and the factor raised at once in a group that is UNUSED (entry 28). -/
def Obligations.GrpsetSetsUpRemotesAnew : Prop :=
  ∀ (s : State) (p : TrunkId) (tag : Nat) (a : GrpsetArgs) (g : GroupId) (form : GroupForm), s.hears p tag → a.group = g.val →
    codeForm a.form = some form → 1 ≤ a.remotes → a.remotes ≤ 6 →
    (form = .ring → g.val % 2 = 0 ∧ (configOf s.lal (groupAfter g)).form = .unused) →
    (form ≠ .unused → g.val % 2 = 1 → (configOf s.lal (portBefore g)).form ≠ .ring) →
    (form ≠ (configOf s.lal g).form ∨ a.remotes ≠ (configOf s.lal g).remotes) →
    ((∃ c : CarrierId, (s.ctb.get c).state = .active ∧ ((s.ctb.get c).placements.get g).isSome) →
      exec (.grpset p tag a) s = .next (s.answered p tag 7 .state [])) ∧
    ((∀ c : CarrierId, (s.ctb.get c).state = .active → ((s.ctb.get c).placements.get g) = none) →
      let cfg : GroupConfig :=
        ⟨form, a.remotes, min a.ceiling (2 ^ 36 - 1), min a.floor 4096, max 8 (min a.guard 255), max 8 (min a.missLimit 1024)⟩
      ∃ t : State, exec (.grpset p tag a) s = .next (t.answered p tag 7 .ok
          (changedFields [(3, cfg.ceiling != a.ceiling), (4, cfg.floor != a.floor), (5, cfg.guard != a.guard),
            (6, cfg.missLimit != a.missLimit)])) ∧
        configOf t.lal g = cfg ∧ t.dmx.get g = { s.dmx.get g with factor := max (s.dmx.get g).factor cfg.floor } ∧
        (t.lal.get g).lanes = (s.lal.get g).lanes ∧ (t.lal.get g).waiting = (s.lal.get g).waiting ∧
        (∀ h : GroupId, h ≠ g → t.lal.get h = s.lal.get h ∧ t.sif.remotes.get h = s.sif.remotes.get h ∧ t.dmx.get h = s.dmx.get h) ∧
        (∀ k : Pos,
          let used := form ≠ .unused ∧ k.val < a.remotes
          let fresh : Context := ⟨.waiting, some .new, 0, 0, 0, 0, 0, 0, 0⟩
          let unused : Context := { fresh with state := .idle, reason := none }
          (used → (t.sif.remotes.get g).get k = ⟨.a, false, none, none, fresh, if form = .ring then fresh else unused⟩) ∧
          (¬used → (t.sif.remotes.get g).get k = ⟨.a, false, none, none, unused, unused⟩)) ∧
        t.ucb = { s.ucb with window := s.ucb.window.map fun x => { x with filed := x.filed.filter fun f => f.group != g } } ∧
        (∀ q : SpanId, if enabled s.lal q = true ∧ enabled t.lal q = false then
            t.sif.ports.get q = { s.sif.ports.get q with link := .down, goodRun := 0, badRun := 0, arrived := false, quiet := 0 }
          else t.sif.ports.get q = s.sif.ports.get q) ∧
        t.mga = s.mga.raiseAll (((List.finRange 8).filter fun q =>
          enabled s.lal q && !enabled t.lal q && (s.sif.ports.get q).link != .down).map fun q => .spanState q .down) ∧
        t.sif.out = s.sif.out ∧ t.fps = s.fps ∧ t.tif = s.tif ∧ t.ctb = s.ctb ∧ t.bku = s.bku ∧ t.ast = s.ast ∧ t.ict = s.ict ∧
        t.pins = s.pins ∧ t.pending = s.pending)

/-- SPRST on an enabled port: the port DOWN with cleared runs and counters and quiet count 8, with SPAN_STATE where it was not
DOWN; every context on it that is not IDLE WAITING(NEW) with zero values, its sections withdrawn, and REMOTE_STATE where state or
reason changed; the reports of remotes fed from it absent. Feed sides, service flags, the other side's contexts, every other
section filed and every other port stay (R93); that the notices go in ascending position is the model's (entry 3). A port that is
not enabled is refused STATE, a number out of range RANGE. -/
def Obligations.SprstResetsOnePort : Prop :=
  ∀ (s : State) (p : TrunkId) (tag : Nat) (q : SpanId), s.hears p tag →
    (∀ n : Nat, 8 ≤ n → exec (.sprst p tag n) s = .next (s.answered p tag 8 .range [])) ∧
    (servedBy s.lal q = none → exec (.sprst p tag q.val) s = .next (s.answered p tag 8 .state [])) ∧
    ∀ (g : GroupId) (sd : Side), servedBy s.lal q = some (g, sd) →
      let ctx := fun k : Pos => ((s.sif.remotes.get g).get k).ctx sd
      ∃ t : State, exec (.sprst p tag q.val) s = .next (t.answered p tag 8 .ok []) ∧
        t.sif.ports = s.sif.ports.put q ⟨.down, 0, 0, false, 8, 0, 0, 0, 0, 0⟩ ∧
        (∀ h : GroupId, h ≠ g → t.sif.remotes.get h = s.sif.remotes.get h) ∧
        (∀ k : Pos,
          let r := (s.sif.remotes.get g).get k
          let r' := (t.sif.remotes.get g).get k
          r'.feed = r.feed ∧ r'.inService = r.inService ∧ r'.ctx (otherSide sd) = r.ctx (otherSide sd) ∧
          (r.feed = sd → r'.headroom = none ∧ r'.radiator = none) ∧
          (r.feed ≠ sd → r'.headroom = r.headroom ∧ r'.radiator = r.radiator) ∧
          ((r.ctx sd).state = .idle → r'.ctx sd = r.ctx sd) ∧
          ((r.ctx sd).state ≠ .idle → r'.ctx sd = ⟨.waiting, some .new, 0, 0, 0, 0, 0, 0, 0⟩)) ∧
        t.ucb = { s.ucb with window := s.ucb.window.map fun x =>
          { x with filed := x.filed.filter fun f => ¬(f.group = g ∧ f.side = sd ∧ (ctx f.pos).state ≠ .idle) } } ∧
        t.mga = s.mga.raiseAll ((if (s.sif.ports.get q).link = .down then [] else [.spanState q .down]) ++
          (((List.finRange 6).filter fun k => (ctx k).state ≠ .idle ∧ ¬((ctx k).state = .waiting ∧ (ctx k).reason = some .new)).map
            fun k => .remoteState g k sd .waiting (some .new))) ∧
        t.sif.out = s.sif.out ∧
        t.fps = s.fps ∧ t.tif = s.tif ∧ t.ctb = s.ctb ∧ t.lal = s.lal ∧ t.dmx = s.dmx ∧ t.bku = s.bku ∧ t.ast = s.ast ∧
        t.ict = s.ict ∧ t.pins = s.pins ∧ t.pending = s.pending

/-- A span uplink frame (R69, R70, R72, R73): on a port that is not enabled it is discarded. A bad one sets the arrival flag,
counts a frame fault and moves the link by Table 4-1, and no section of it is read; a good one counts a good frame and moves
the link, and on a port that is UP after the move its sections are examined, in their order, while on any other none is read. Each
change of link raises SPAN_STATE. The port that goes DOWN from UP makes its TRACKING contexts WAITING(SILENT), with REMOTE_STATE
for each, in ascending position (the model's order, entry 3), and withdraws their sections. That the good run stands at 4 while the
port is UP and is 0 once it has gone DOWN from UP is the model's inference (entry 15). -/
def Obligations.SpanFrameMovesTheLink : Prop :=
  ∀ (s : State) (q : SpanId) (bs : List Byte), s.held = false →
    (servedBy s.lal q = none → exec (.spanUplinkFrameArrival q bs) s = .next s) ∧
    ∀ (g : GroupId) (sd : Side), servedBy s.lal q = some (g, sd) →
      let x := s.sif.ports.get q
      let bad : SpanPort := { x with arrived := true, frameFaults := min (x.frameFaults + 1) 4294967295 }
      let good : SpanPort := { x with arrived := true, goodFrames := min (x.goodFrames + 1) 4294967295 }
      let tracks := fun k : Pos => (((s.sif.remotes.get g).get k).ctx sd).state = .tracking
      let moved := fun (y : SpanPort) (ns : List Notice) =>
        ({ s with sif := { s.sif with ports := s.sif.ports.put q y }, mga := s.mga.raiseAll ns } : State)
      let read := fun (y : SpanPort) (ns : List Notice) =>
        s.withSpans ((frameSections bs).foldl (Spans.examine s.lal q g sd) ⟨s.sif.ports.put q y, s.sif.remotes, s.ucb.window, ns⟩)
      (spanFrameGood bs = false →
        (x.link = .down → exec (.spanUplinkFrameArrival q bs) s = .next (moved bad [])) ∧
        (x.link = .aligning → exec (.spanUplinkFrameArrival q bs) s =
          .next (moved { bad with link := .down, goodRun := 0 } [.spanState q .down])) ∧
        (x.link = .up → x.badRun < 7 → exec (.spanUplinkFrameArrival q bs) s = .next (moved { bad with badRun := x.badRun + 1 } [])) ∧
        (x.link = .up → 7 ≤ x.badRun → ∃ t : State, exec (.spanUplinkFrameArrival q bs) s = .next t ∧
          t.sif.ports = s.sif.ports.put q { bad with link := .down, goodRun := 0, badRun := 0 } ∧
          (∀ h : GroupId, h ≠ g → t.sif.remotes.get h = s.sif.remotes.get h) ∧
          (∀ k : Pos, let r := (s.sif.remotes.get g).get k
            (tracks k → (t.sif.remotes.get g).get k =
              r.setCtx sd { r.ctx sd with state := .waiting, reason := some .silent, missRun := 0 }) ∧
            (¬tracks k → (t.sif.remotes.get g).get k = r)) ∧
          t.ucb = { s.ucb with window := s.ucb.window.map fun w =>
            { w with filed := w.filed.filter fun f => ¬(f.group = g ∧ f.side = sd ∧
              (((s.sif.remotes.get g).get f.pos).ctx sd).state = .tracking) } } ∧
          t.mga = s.mga.raiseAll (.spanState q .down ::
            (((List.finRange 6).filter fun k => (((s.sif.remotes.get g).get k).ctx sd).state = .tracking).map
              fun k => .remoteState g k sd .waiting (some .silent))) ∧
          t.sif.out = s.sif.out ∧ t.fps = s.fps ∧ t.tif = s.tif ∧ t.ctb = s.ctb ∧ t.lal = s.lal ∧ t.dmx = s.dmx ∧ t.bku = s.bku ∧
          t.ast = s.ast ∧ t.ict = s.ict ∧ t.pins = s.pins ∧ t.pending = s.pending)) ∧
      (spanFrameGood bs = true →
        (x.link = .down → exec (.spanUplinkFrameArrival q bs) s =
          .next (moved { good with link := .aligning, goodRun := 1 } [.spanState q .aligning])) ∧
        (x.link = .aligning → x.goodRun < 3 → exec (.spanUplinkFrameArrival q bs) s =
          .next (moved { good with goodRun := x.goodRun + 1 } [])) ∧
        (x.link = .aligning → 3 ≤ x.goodRun → exec (.spanUplinkFrameArrival q bs) s =
          .next (read { good with link := .up, goodRun := 4, badRun := 0 } [.spanState q .up])) ∧
        (x.link = .up → exec (.spanUplinkFrameArrival q bs) s = .next (read { good with badRun := 0 } [])))

/-- A section read from a frame. Before any context (R76): one whose check fails counts a section fault and nothing else; one whose
position names no configured remote, or whose radiator code is none of the three, counts an unknown section and raises
SECTION_FAULT; any other goes to its context. There: WAITING without START, the unstarted count rises and nothing else (R77). With
START it is taken whatever its count and echo, a WAITING context becoming TRACKING with REMOTE_STATE, a TRACKING one raising
REMOTE_RESYNC where the section is out of step (R78). Without START on a TRACKING context, offset k from expected echo to echo: out of
step it is an ORDER fault, the context WAITING(ORDER) and its filed sections withdrawn (R79). In step, or with START: where its echo is
an open slot it is accepted and filed, replacing one under its key, whatever k (R80 and R98, entry 11), and on the feed side the
reports are taken, with REMOTE_REPORT where one changed (R81); else it is LATE, with k from 0 on moving the expectations past
itself, below 0 keeping them with miss run -k - 1 (R80). -/
def Obligations.SectionWithoutStartIsStepped : Prop :=
  (∀ (v : Spans) (lal : Table Group 8) (q : SpanId) (g : GroupId) (sd : Side) (bs : List Byte),
    let w := Spans.examine lal q g sd v bs
    let x := v.ports.get q
    let h := sectionHeader bs
    let cfg := configOf lal g
    let names := fun k : Pos => h.position.toNat = k.val + 1 ∧ cfg.form ≠ .unused ∧ k.val < cfg.remotes
    (sectionCheckPasses bs = false →
      w = { v with ports := v.ports.put q { x with sectionFaults := min (x.sectionFaults + 1) 4294967295 } }) ∧
    (sectionCheckPasses bs = true →
      ((∀ k : Pos, ¬names k) ∨ h.radiator = 3 → w =
        { v with
          ports := v.ports.put q { x with unknownSections := min (x.unknownSections + 1) 4294967295 }
          out := v.out ++ [.sectionFault q h.position h.echo h.radiator] }) ∧
      ∀ k : Pos, names k →
        (h.radiator = 0 → w = v.consult g k sd h .ok (sectionBlocks bs)) ∧
        (h.radiator = 1 → w = v.consult g k sd h .feederFault (sectionBlocks bs)) ∧
        (h.radiator = 2 → w = v.consult g k sd h .paOff (sectionBlocks bs)))) ∧
  ∀ (v : Spans) (g : GroupId) (k : Pos) (sd : Side) (h : SectionHeader) (rad : Radiator) (blocks : Table LaneBlock 32),
    let r := v.remote g k
    let c := r.ctx sd
    let w := v.consult g k sd h rad blocks
    let off := (h.echo - c.expEcho).toInt
    let step := h.count - c.expCount = BitVec.ofInt 8 off ∧ -(c.missRun : Int) ≤ off ∧ off ≤ 3
    let isOpen := h.echo ∈ openSlots v.window
    let here := fun (y : Remote) => v.remotes.edit g fun t => t.put k y
    let past := fun (c : Context) => { c with expCount := h.count + 1, expEcho := h.echo + 1, missRun := 0 }
    let accepted := fun (c : Context) (ns : List Notice) =>
      { v with
        remotes := here ((if r.feed = sd then { r with headroom := some h.headroom, radiator := some rad } else r).setCtx sd
          { past c with accepted := min (c.accepted + 1) 4294967295 })
        window := v.window.map fun x =>
          if x.hfn = h.echo then
            { x with filed := x.filed.filter (fun f => ¬(f.group = g ∧ f.pos = k ∧ f.side = sd)) ++ [⟨g, k, sd, blocks⟩] }
          else x
        out := v.out ++ ns ++ (if r.feed = sd ∧ ¬(r.headroom = some h.headroom ∧ r.radiator = some rad) then
          [.remoteReport g k h.headroom rad] else []) }
    let late := fun (c : Context) (ns : List Notice) =>
      { v with remotes := here (r.setCtx sd { past c with late := min (c.late + 1) 4294967295 }), out := v.out ++ ns }
    (c.state = .waiting → h.start = false →
      w = { v with remotes := here (r.setCtx sd { c with unstarted := min (c.unstarted + 1) 4294967295 }) }) ∧
    (c.state = .waiting → h.start = true →
      let tracking : Context := { c with state := .tracking, reason := none }
      (isOpen → w = accepted tracking [.remoteState g k sd .tracking none]) ∧
      (¬isOpen → w = late tracking [.remoteState g k sd .tracking none])) ∧
    (c.state = .tracking → h.start = true →
      let resync : Notice := .remoteResync g k sd c.expCount c.expEcho h.count h.echo
      (step → (isOpen → w = accepted c []) ∧ (¬isOpen → w = late c [])) ∧
      (¬step → (isOpen → w = accepted c [resync]) ∧ (¬isOpen → w = late c [resync]))) ∧
    (c.state = .tracking → h.start = false →
      (¬step → w =
        { v with
          remotes := here (r.setCtx sd
            { c with state := .waiting, reason := some .order, missRun := 0, orderFaults := min (c.orderFaults + 1) 4294967295 })
          window := v.window.map fun x => { x with filed := x.filed.filter fun f => ¬(f.group = g ∧ f.pos = k ∧ f.side = sd) }
          out := v.out ++ [.remoteState g k sd .waiting (some .order)] }) ∧
      (step → isOpen → w = accepted c []) ∧
      (step → ¬isOpen → 0 ≤ off → w = late c []) ∧
      (step → ¬isOpen → off < 0 → w =
        { v with remotes := here (r.setCtx sd { c with missRun := (-off - 1).toNat, late := min (c.late + 1) 4294967295 }) }))

/-- MISS_LIMIT_REACHED, the end of a TRACKING context whose next counted miss reaches its group's limit: it is WAITING(SILENT)
with miss run 0, REMOTE_STATE is raised and its filed sections are withdrawn (R82, R83, R75); no other context, port or record
changes. That the row is due at the next counted miss, and does nothing else before, is the model's (entry 1). And what the close
of slot h settles for a served group: each TRACKING context with no section filed for h counts a miss, its expectations keeping
pace where its expected echo is h, and at the limit is given up as above (R82, R83); then a ring remote whose feed side is not
TRACKING moves to its other side if that is, with REMOTE_SIDE (R84); then each configured remote is in service exactly if its feed
side is TRACKING (R85). Other groups, ports and reports stay; positions and sides go in ascending order (entry 3). -/
def Obligations.MissLimitSilencesTheContext : Prop :=
  (∀ (s : State) (g : GroupId) (k : Pos) (sd : Side), s.held = false →
    let c := ((s.sif.remotes.get g).get k).ctx sd
    (c.state ≠ .tracking ∨ c.missRun + 1 < (configOf s.lal g).missLimit → exec (.missLimitReached g k sd) s = .next s) ∧
    (c.state = .tracking → (configOf s.lal g).missLimit ≤ c.missRun + 1 →
      ∃ (t : State) (c' : Context), exec (.missLimitReached g k sd) s = .next t ∧
        t.sif = { s.sif with remotes := s.sif.remotes.edit g fun r => r.edit k fun x => x.setCtx sd c' } ∧
        c'.state = .waiting ∧ c'.reason = some .silent ∧ c'.missRun = 0 ∧ c'.accepted = c.accepted ∧ c'.late = c.late ∧
        c'.orderFaults = c.orderFaults ∧ c'.unstarted = c.unstarted ∧
        t.ucb = { s.ucb with window := s.ucb.window.map fun x =>
          { x with filed := x.filed.filter fun f => ¬(f.group = g ∧ f.pos = k ∧ f.side = sd) } } ∧
        t.mga = s.mga.raise (.remoteState g k sd .waiting (some .silent)) ∧
        t.fps = s.fps ∧ t.tif = s.tif ∧ t.ctb = s.ctb ∧ t.lal = s.lal ∧ t.dmx = s.dmx ∧ t.bku = s.bku ∧ t.ast = s.ast ∧
        t.ict = s.ict ∧ t.pins = s.pins ∧ t.pending = s.pending)) ∧
  ∀ (v : Spans) (lal : Table Group 8) (h : FrameNo) (g : GroupId),
    let w := v.closeGroup lal h g
    let cfg := configOf lal g
    let missed := fun (k : Pos) (sd : Side) => (v.ctx g k sd).state == .tracking && (filedFor v.window h g k sd).isNone
    let givenUp := fun (k : Pos) (sd : Side) => missed k sd && decide (cfg.missLimit ≤ (v.ctx g k sd).missRun + 1)
    let counted := fun (k : Pos) (sd : Side) => let c := v.ctx g k sd
      if c.expEcho = h then { c with missRun := c.missRun + 1, expCount := c.expCount + 1, expEcho := c.expEcho + 1 }
      else { c with missRun := c.missRun + 1 }
    let after := fun (k : Pos) (sd : Side) =>
      if givenUp k sd then { counted k sd with state := .waiting, reason := some .silent, missRun := 0 }
      else if missed k sd then counted k sd else v.ctx g k sd
    let tracks := fun (k : Pos) (sd : Side) => (after k sd).state == .tracking
    let moves := fun k : Pos => let f := (v.remote g k).feed
      cfg.form == .ring && decide (k.val < cfg.remotes) && !tracks k f && tracks k (otherSide f)
    (cfg.form = .unused → w = v) ∧
    (cfg.form ≠ .unused →
      (∀ k : Pos,
        let r := v.remote g k
        let f := if moves k then otherSide r.feed else r.feed
        w.remote g k = { r with
          feed := f, inService := decide (k.val < cfg.remotes) && tracks k f, ctxA := after k .a, ctxB := after k .b }) ∧
      (∀ o : GroupId, o ≠ g → w.remotes.get o = v.remotes.get o) ∧ w.ports = v.ports ∧
      w.window = v.window.map (fun x => { x with filed := x.filed.filter fun f => !(f.group == g && givenUp f.pos f.side) }) ∧
      w.out = v.out ++
        ((((List.finRange 6).flatMap fun k => [(k, Side.a), (k, Side.b)]).filter fun x => givenUp x.1 x.2).map
          fun x => .remoteState g x.1 x.2 .waiting (some .silent)) ++
        (((List.finRange 6).filter moves).map fun k => .remoteSide g k (otherSide (v.remote g k).feed)))

/-- LANE_GUARD_EXPIRY makes a GUARD lane whose count runs out LIVE with the same owner and mark, and changes nothing else; at a slot
event the guard step does so in every group, and counts every other guard down by one (R31). HANG_EXPIRY closes a gate in HANG whose
count runs out, and changes nothing else (R102). That each row is due when its count runs out at the next count, and does nothing
before, is the model's (entry 1). -/
def Obligations.GuardAndHangExpire : Prop :=
  (∀ (s : State) (g : GroupId) (l : LaneId), s.held = false →
    (let x := (s.lal.get g).lanes.get l
     exec (.laneGuardExpiry g l) s =
      .next (if x.state = .guard ∧ x.guardCount ≤ 1 then
        { s with lal := s.lal.edit g fun y => { y with lanes := y.lanes.put l ⟨.live, x.owner, 0, x.player⟩ } } else s)) ∧
    ∀ k : Pos, let q := ((s.ucb.gates.get g).get l).get k
      exec (.hangExpiry g l k) s =
        .next (if q.state = .hang ∧ q.hang ≤ 1 then
          { s with ucb := { s.ucb with gates := s.ucb.gates.edit g fun y => y.edit l fun z => z.put k ⟨.closed, 0⟩ } } else s)) ∧
  ∀ (t : Table Group 8) (g : GroupId),
    ((guardStep t).get g).config = (t.get g).config ∧ ((guardStep t).get g).waiting = (t.get g).waiting ∧
    ∀ l : LaneId, let x := (t.get g).lanes.get l
      ((guardStep t).get g).lanes.get l =
        if x.state = .guard then
          if x.guardCount ≤ 1 then ⟨.live, x.owner, 0, x.player⟩ else { x with guardCount := x.guardCount - 1 }
        else x

/-! ### Downlink mixing (chapter 3) -/

/-- OVER_BUDGET: where an episode of a group with a form has stood pinned for 63 slots, with the envelope above the effective ceiling
and the factor at the floor, the next such slot makes it REPORTED with run 64 and raises one notice with the envelope, the effective
ceiling and the protected power (R65); nothing else changes, and otherwise nothing happens. That the row is due then, with the
ceiling and floor that the next update would use and the protected power of the last, is the model's (entry 1). -/
def Obligations.OverBudgetReportsOnce : Prop :=
  ∀ (s : State) (g : GroupId), s.held = false →
    let x := s.dmx.get g
    let cfg := configOf s.lal g
    let C := cfg.ceiling * (4 - derating (s.sif.remotes.get g)) / 4
    exec (.overBudget g) s = .next (
      if cfg.form ≠ .unused ∧ x.episode = .over ∧ 63 ≤ x.run ∧ C < x.envelope ∧ x.factor = cfg.floor then
        { s with
          dmx := s.dmx.put g { x with episode := .reported, run := 64 }
          mga := s.mga.raise (.overBudget g x.envelope C ((x.last.map (·.protPower)).getD 0)) }
      else s)

/-- One limiter update (R60 to R66): the envelope moves by a sixteenth of its distance to the group power, truncated toward
zero; the factor falls by its thirty-second, rounded up, above the effective ceiling, rises by its sixty-fourth and 1 below
seven eighths of it, holds between, and stays between floor and 4096; the protected-over flag says whether the protected power
exceeds the ceiling, and rising raises PROTECTED_OVER; episode and pinned run move by the table of R65, OVER_BUDGET raised where the
episode becomes REPORTED (that it joins before PROTECTED_OVER is the model's, entry 3, and that the run of a REPORTED episode reads 64
from the first pinned slot after a break on, entry 31). The derating is the greatest headroom code reported by the remotes in service
whose radiator is not PA_OFF, 0 where there is none (R62). A block's power code is the mean of I² + Q² over its 24 samples, rounded
down (R4); the group power sums the 32 lanes' power codes and the protected power those of the protected lanes, each held at 2^36 - 1
(R60). -/
def Obligations.LimiterUpdateFollowsItsRules : Prop :=
  (∀ (x : Limiter) (n : FrameNo) (g : GroupId) (cfg : GroupConfig) (m : Table MixedLane 32) (d : Nat),
    cfg.floor ≤ x.factor → x.factor ≤ 4096 → cfg.floor ≤ 4096 → d ≤ 3 →
    let y := (x.update n g cfg m d).1
    let P : Int := groupPower m
    let C := cfg.ceiling * (4 - d) / 4
    (y.envelope : Int) = x.envelope + Int.tdiv (P - x.envelope) 16 ∧
    (C < y.envelope → y.factor = max cfg.floor (x.factor - (x.factor + 31) / 32)) ∧
    (C - C / 8 ≤ y.envelope → y.envelope ≤ C → y.factor = x.factor) ∧
    (y.envelope < C - C / 8 → y.factor = min 4096 (x.factor + x.factor / 64 + 1)) ∧
    cfg.floor ≤ y.factor ∧ y.factor ≤ 4096 ∧
    (y.protectedOver = true ↔ C < protectedPower m) ∧
    (y.envelope ≤ C → y.episode = .quiet ∧ y.run = 0) ∧
    (C < y.envelope → y.factor = cfg.floor →
      (x.episode = .quiet → y.episode = .over ∧ y.run = 1) ∧
      (x.episode = .over → x.run < 63 → y.episode = .over ∧ y.run = x.run + 1) ∧
      (x.episode = .over → 63 ≤ x.run → y.episode = .reported ∧ y.run = 64) ∧
      (x.episode = .reported → y.episode = .reported ∧ y.run = 64)) ∧
    (C < y.envelope → y.factor ≠ cfg.floor →
      (x.episode ≠ .reported → y.episode = .over ∧ y.run = 0) ∧ (x.episode = .reported → y.episode = .reported ∧ y.run = 0)) ∧
    (x.update n g cfg m d).2 =
      (if y.episode = .reported ∧ x.episode ≠ .reported then [.overBudget g y.envelope C (protectedPower m)] else []) ++
      (if y.protectedOver = true ∧ x.protectedOver = false then [.protectedOver g (protectedPower m) C] else []) ∧
    y.last = some ⟨n, groupPower m, protectedPower m, d, C⟩ ∧ protectedPower m ≤ groupPower m ∧ groupPower m ≤ 2 ^ 36 - 1) ∧
  (∀ b : LaneBlock, (power b : Int) =
    ((List.finRange 24).map fun k => (b.get k).i.toInt ^ 2 + (b.get k).q.toInt ^ 2).sum / 24) ∧
  (∀ m : Table MixedLane 32,
    groupPower m = min ((List.finRange 32).map fun l => power (m.get l).block).sum (2 ^ 36 - 1) ∧
    protectedPower m =
      min ((List.finRange 32).map fun l => if (m.get l).isProtected then power (m.get l).block else 0).sum (2 ^ 36 - 1)) ∧
  ∀ t : Table Remote 6,
    (∀ (k : Pos) (h : BitVec 2), (t.get k).inService = true → (t.get k).radiator ≠ some .paOff → (t.get k).headroom = some h →
      h.toNat ≤ derating t) ∧
    (derating t = 0 ∨ ∃ (k : Pos) (h : BitVec 2), (t.get k).inService = true ∧ (t.get k).radiator ≠ some .paOff ∧
      (t.get k).headroom = some h ∧ derating t = h.toNat)

/-- The output of a protected lane is never scaled by the limiter (R55, R56, R63): two hubs that differ only in their limiter
states mix a RESCUE carrier's lane alike, and every lane under a player where the row protects break-in. And every lane of a group is
built by the five stages of R49: a FREE or GUARD lane carries zeros; a LIVE lane takes its source, the combined block of HFN n-5
where talk-through runs (R19, R50, R52), else the active frame's block of its source lane, else zeros (R51); is cross-faded with the
block of its break-in player, where that produced one (R53); takes its base gain times its trim, capped at 65535 (R54); is scaled by
the limiter factor where unprotected (R56); and is rounded and saturated, the components changed being counted (R57, R58). And the
CLIP notices of a group in a slot: one for each lane block in which saturation changed a component, with its lane, owner and that
count, and no other (R58); that they join lane by lane in ascending number is the model's (entry 3). -/
def Obligations.LimiterNeverTouchesProtectedLanes : Prop :=
  (∀ (i : MixInput) (g : GroupId) (l : LaneId) (c : CarrierId) (limiters : Table Limiter 8),
    ((i.lanes.get g).lanes.get l).owner = some c →
    ((i.pre.ctb.get c).fields.kind = .rescue ∨
      (((i.lanes.get g).lanes.get l).player.isSome ∧ i.pre.ict.row.protectBreakIn = true)) →
    ({ i with pre := { i.pre with dmx := limiters } } : MixInput).lane g l = i.lane g l) ∧
  (∀ (i : MixInput) (g : GroupId) (l : LaneId),
    let x := (i.lanes.get g).lanes.get l
    let y := i.lane g l
    (x.state ≠ .live → y.block = .fill ⟨0, 0⟩ ∧ power y.block = 0 ∧ y.clipped = 0 ∧ y.owner = none ∧ y.isProtected = false) ∧
    ∀ c : CarrierId, x.state = .live → x.owner = some c →
      let r := i.pre.ctb.get c
      let f := r.fields
      let talks := r.state == .active && f.kind == .rescue &&
        (f.talkMode == .on || (f.talkMode == .auto && (i.pre.fps.ref != .locked || i.pre.ict.row.talkAuto)))
      let zeros : LaneBlock := .fill ⟨0, 0⟩
      let p : LaneBlock :=
        if talks then (((i.pre.ucb.history.get c).find? fun e => e.hfn == i.hfn - 5).map (·.block)).getD zeros
        else match f.dlSource, i.active with
          | some t, some bs => frameLane bs t
          | _, _ => zeros
      let voice := match x.player with
        | some .bp0 => i.play0
        | some .bp1 => i.play1
        | none => none
      let mixed := fun (source : Int) (part : LaneBlock → Int) => match voice with
        | some w => nearest (source * (4096 - w.fade) + part w.block * w.fade) 4096
        | none => source
      let gain := min 65535 (nearest ((if talks then f.talkGain else f.dlGain) *
        ((((r.placements.get g).map (·.trim)).getD 4096 : Nat) : Int)) 4096)
      let protects := f.kind == .rescue || (x.player.isSome && i.pre.ict.row.protectBreakIn)
      let effective := if protects then gain else nearest (gain * ((i.pre.dmx.get g).factor : Int)) 4096
      let exactI := fun k : Fin 24 => nearest (mixed (p.get k).i.toInt (fun b => (b.get k).i.toInt) * effective) 4096
      let exactQ := fun k : Fin 24 => nearest (mixed (p.get k).q.toInt (fun b => (b.get k).q.toInt) * effective) 4096
      let changed := fun v : Int => if v < -32768 ∨ 32767 < v then 1 else 0
      (∀ k : Fin 24, (y.block.get k).i.toInt = max (-32768) (min (exactI k) 32767) ∧
        (y.block.get k).q.toInt = max (-32768) (min (exactQ k) 32767)) ∧
      y.clipped = ((List.finRange 24).map fun k => changed (exactI k) + changed (exactQ k)).sum ∧
      y.owner = some c ∧ y.isProtected = protects) ∧
  ∀ (i : MixInput) (g : GroupId),
    laneClips g (.make (i.lane g)) = (List.finRange 32).flatMap fun l =>
      match (i.lane g l).owner, (i.lane g l).clipped with
      | some c, k + 1 => [.clipLane g l c (k + 1)]
      | _, _ => []

/-! ### Uplink combining (chapter 5) -/

/-- A squelch gate moves by Table 5-3 (R102), where the close threshold does not exceed the open threshold; outside HANG its
count is 0. And what the close of a slot does in the combiner: on a LIVE lane whose owner has an uplink destination the gate of each
configured remote moves so by the power of its feed side's section, 0 where none is filed, and is CLOSED where the remote is not in
service; no other gate moves (R101). Each ACTIVE carrier with a destination sums, over its LIVE lanes, the blocks of the in-service
remotes that have a section and a gate not CLOSED (R104, R105): saturated, the block of its history (R106, R109), and scaled by its
uplink gain and saturated, the block of its trunk lane, a CLIP saying how many components changed (R107, R108); lanes that nobody's
sum goes to carry zeros. -/
def Obligations.GateMovesByItsTable : Prop :=
  (∀ (q : Gate) (p o k h : Nat), k ≤ o →
    (o ≤ p → q.update p o k h = ⟨.opened, 0⟩) ∧
    (k ≤ p → p < o → q.update p o k h = if q.state = .closed then ⟨.closed, 0⟩ else ⟨.opened, 0⟩) ∧
    (p < k → q.state = .closed → q.update p o k h = ⟨.closed, 0⟩) ∧
    (p < k → q.state = .opened → q.update p o k h = if h = 0 then ⟨.closed, 0⟩ else ⟨.hang, h⟩) ∧
    (p < k → q.state = .hang → q.update p o k h = if q.hang ≤ 1 then ⟨.closed, 0⟩ else ⟨.hang, q.hang - 1⟩)) ∧
  ∀ (u : Combiner) (i : CloseInput),
    let v := u.afterClose i
    let laneOf := fun (g : GroupId) (l : LaneId) => (i.lanes.get g).lanes.get l
    let configured := fun (g : GroupId) (k : Pos) =>
      (i.lanes.get g).config.form != .unused && decide (k.val < (i.lanes.get g).config.remotes)
    let serves := fun (g : GroupId) (k : Pos) => ((i.remotes.get g).get k).inService
    let handed := fun (g : GroupId) (k : Pos) => filedFor i.window i.hfn g k ((i.remotes.get g).get k).feed
    let owns := fun (c : CarrierId) (g : GroupId) (l : LaneId) => (laneOf g l).state == .live && (laneOf g l).owner == some c
    let destOf := fun c : CarrierId => (i.ctb.get c).fields.ulDest
    let gateOf := fun (w : Combiner) (g : GroupId) (l : LaneId) (k : Pos) => ((w.gates.get g).get l).get k
    let terms := fun c : CarrierId => (List.finRange 8).flatMap fun g => ((List.finRange 32).filter (owns c g)).flatMap fun l =>
      (List.finRange 6).filterMap fun k =>
        if configured g k && serves g k && (gateOf v g l k).state != .closed then (handed g k).map fun x => x.blocks.get l else none
    let total := fun (c : CarrierId) (part : Sample → BitVec 16) (n : Fin 24) => ((terms c).map fun b => (part (b.get n)).toInt).sum
    let scaled := fun (c : CarrierId) (part : Sample → BitVec 16) (n : Fin 24) =>
      nearest (total c part n * ((i.ctb.get c).fields.ulGain : Int)) 4096
    let changed := fun x : Int => if x < -32768 ∨ 32767 < x then 1 else 0
    let clipped := fun c : CarrierId => ((List.finRange 24).map fun n => changed (scaled c (·.i) n) + changed (scaled c (·.q) n)).sum
    let summing := fun c : CarrierId => (i.ctb.get c).state == .active && (destOf c).isSome
    let recent := fun es : List HistoryEntry => es.filter fun e => decide ((i.hfn - e.hfn).toNat ≤ 4)
    (∀ (g : GroupId) (l : LaneId) (k : Pos),
      (∀ c : CarrierId, owns c g l = true → (destOf c).isSome → configured g k = true →
        (serves g k = false → gateOf v g l k = ⟨.closed, 0⟩) ∧
        (serves g k = true → gateOf v g l k =
          let f := (i.ctb.get c).fields
          (gateOf u g l k).update (((handed g k).map fun x => power (x.blocks.get l)).getD 0) f.sqOpen f.sqClose f.hang)) ∧
      (configured g k = false ∨ (∀ c : CarrierId, owns c g l = true → destOf c = none) → gateOf v g l k = gateOf u g l k)) ∧
    (∀ c : CarrierId, (∀ (g : GroupId) (l m : LaneId), owns c g l = true → owns c g m = true → l = m) →
      (summing c = true →
        (∃ K : LaneBlock, v.history.get c = recent (u.history.get c ++ [⟨i.hfn, K⟩]) ∧
          ∀ n : Fin 24, (K.get n).i.toInt = max (-32768) (min (total c (·.i) n) 32767) ∧
            (K.get n).q.toInt = max (-32768) (min (total c (·.q) n) 32767)) ∧
        v.lastClose.get c = some ⟨i.hfn, (terms c).length, clipped c⟩ ∧
        ∀ t : TrunkLane, destOf c = some t → (∀ d : CarrierId, d ≠ c → summing d = true → destOf d ≠ some t) →
          (clipNotices (i.sums v.gates)).filter (fun x => match x with
            | .clipTrunk a _ _ => a == t
            | _ => false) = (if clipped c = 0 then [] else [.clipTrunk t c (clipped c)]) ∧
          ∀ n : Fin 24, ((v.uplink.get t).get n).i.toInt = max (-32768) (min (scaled c (·.i) n) 32767) ∧
            ((v.uplink.get t).get n).q.toInt = max (-32768) (min (scaled c (·.q) n) 32767)) ∧
      (summing c = false → v.history.get c = recent (u.history.get c) ∧ v.lastClose.get c = u.lastClose.get c)) ∧
    (∀ t : TrunkLane, (∀ c : CarrierId, summing c = true → destOf c ≠ some t) → v.uplink.get t = .fill ⟨0, 0⟩) ∧
    v.lastClosed = some i.hfn ∧ v.window = u.window

/-! ### Trunks and the pacer (chapter 6) -/

/-- R116: a frame joins the FIFO of its port if that holds fewer than two, else it is discarded and a slip counted; it is not
judged, and nothing else changes, whatever the port's link state and role. -/
def Obligations.TrunkFrameJoinsTheFifoOrSlips : Prop :=
  ∀ (s : State) (p : TrunkId) (f : List Byte), s.held = false →
    let x := s.tif.port p
    let y : TrunkPort := if x.fifo.length < 2 then { x with fifo := x.fifo ++ [f] } else { x with slips := min (x.slips + 1) 4294967295 }
    exec (.trunkFrameArrival p f) s = .next { s with tif := s.tif.setPort p y }

/-- The consumption of one port (R117 to R119): the oldest frame is taken and judged, or a miss counted; TFN is compared and
kept for good frames alone; the link moves by Table 6-1. -/
def Obligations.ConsumptionJudgesTheOldestFrame : Prop :=
  ∀ x : TrunkPort,
    let y := x.consume.1
    y.fifo = x.fifo.tail ∧ y.role = x.role ∧ y.slips = x.slips ∧
    (∀ f : List Byte, x.consume.2 = some f ↔ x.fifo.head? = some f ∧ trunkFrameGood f = true) ∧
    (x.fifo = [] → y.misses = min (x.misses + 1) 4294967295 ∧ y.goodFrames = x.goodFrames ∧ y.checkFaults = x.checkFaults) ∧
    (∀ f : List Byte, x.fifo.head? = some f → trunkFrameGood f = false →
      y.checkFaults = min (x.checkFaults + 1) 4294967295 ∧ y.goodFrames = x.goodFrames ∧ y.misses = x.misses) ∧
    (∀ f : List Byte, x.fifo.head? = some f → trunkFrameGood f = true →
      y.goodFrames = min (x.goodFrames + 1) 4294967295 ∧ y.checkFaults = x.checkFaults ∧ y.misses = x.misses ∧
      y.lastTfn = some (frameTfn f) ∧
      (∀ t, x.lastTfn = some t → frameTfn f ≠ t + 1 → y.tfnGaps = min (x.tfnGaps + 1) 4294967295) ∧
      (x.lastTfn = none ∨ x.lastTfn = some (frameTfn f - 1) → y.tfnGaps = x.tfnGaps) ∧
      (x.link = .down → y.link = .acquiring ∧ y.goodRun = 1) ∧
      (x.link = .acquiring → x.goodRun < 15 → y.link = .acquiring ∧ y.goodRun = x.goodRun + 1) ∧
      (x.link = .acquiring → 15 ≤ x.goodRun → y.link = .up ∧ y.badRun = 0) ∧
      (x.link = .up → y.link = .up ∧ y.badRun = 0)) ∧
    (x.consume.2 = none →
      y.tfnGaps = x.tfnGaps ∧ (x.link = .down → y.link = .down) ∧
      (x.link = .acquiring → y.link = .down ∧ y.goodRun = 0 ∧ y.lastTfn = none) ∧
      (x.link = .up → x.badRun < 7 → y.link = .up ∧ y.badRun = x.badRun + 1 ∧ y.lastTfn = x.lastTfn) ∧
      (x.link = .up → 7 ≤ x.badRun → y.link = .down ∧ y.goodRun = 0 ∧ y.badRun = 0 ∧ y.lastTfn = none))

/-- The settlement of roles (R120): a port that is not UP has none; the port that was ACTIVE and is still UP stays ACTIVE, and
the other, if UP, is STANDBY; else the other takes over, with TRUNK_SWITCH(LOSS) where a port was ACTIVE before; where none
was, A comes before B and no TRUNK_SWITCH is raised. -/
def Obligations.SettlementIsNonRevertive : Prop :=
  ∀ t : TrunkSide, ¬(t.a.role = .active ∧ t.b.role = .active) →
    let u := t.settle.1
    (∀ p : TrunkId, ((t.port p).link ≠ .up ↔ (u.port p).role = .none)) ∧
    (∀ p : TrunkId, (u.port p).link = (t.port p).link) ∧
    (∀ p : TrunkId, (t.port p).role = .active → (t.port p).link = .up → (u.port p).role = .active ∧ t.settle.2 = []) ∧
    (∀ p : TrunkId, (t.port p).role = .active → (t.port p).link ≠ .up → (t.port (otherTrunk p)).link = .up →
      (u.port (otherTrunk p)).role = .active ∧ t.settle.2 = [.trunkSwitch (otherTrunk p) .loss]) ∧
    (t.a.role ≠ .active → t.b.role ≠ .active → t.settle.2 = [] ∧ (t.a.link = .up → u.a.role = .active) ∧
      (t.a.link ≠ .up → t.b.link = .up → u.b.role = .active)) ∧
    ¬(u.a.role = .active ∧ u.b.role = .active)

/-- HOLDOVER_EXPIRY: the holdover count that reaches the limit makes the reference state FREE_RUN, raises REFERENCE_STATE and
stays at the value reached (R128); nothing else changes. That the row is due at the count below the limit is the model's
(entry 1). -/
def Obligations.HoldoverExpiresToFreeRun : Prop :=
  ∀ s : State, s.held = false →
    exec .holdoverExpiry s = .next (if s.fps.ref = .holdover ∧ s.fps.holdLimit ≤ s.fps.holdCount + 1 then
      { s with
        fps := { s.fps with ref := .freeRun, holdCount := s.fps.holdCount + 1 }
        mga := s.mga.raise (.referenceState .freeRun) } else s)

/-- TRKSEL (R123): a code that names no port is RANGE, a port that is not UP is STATE, the port ACTIVE already is answered OK
with no change, and any other becomes ACTIVE with the other port STANDBY and TRUNK_SWITCH(SELECT); the reference state and the
holdover count stay. -/
def Obligations.TrkselMovesTheActiveRole : Prop :=
  ∀ (s : State) (p q : TrunkId) (tag n : Nat), s.hears p tag →
    (2 ≤ n → exec (.trksel p tag n) s = .next (s.answered p tag 22 .range [])) ∧
    (codeTrunk n = some q → (s.tif.port q).link ≠ .up → exec (.trksel p tag n) s = .next (s.answered p tag 22 .state [])) ∧
    (codeTrunk n = some q → (s.tif.port q).link = .up → (s.tif.port q).role = .active →
      exec (.trksel p tag n) s = .next (s.answered p tag 22 .ok [])) ∧
    (codeTrunk n = some q → (s.tif.port q).link = .up → (s.tif.port q).role ≠ .active →
      exec (.trksel p tag n) s = .next (({ s with
        tif := { s.tif with
          a := { s.tif.a with role := if q = .a then .active else .standby }
          b := { s.tif.b with role := if q = .b then .active else .standby } }
        mga := s.mga.raise (.trunkSwitch q .select) } : State).answered p tag 22 .ok []))

/-! ### Break-in (chapter 7) -/

/-- ANNC (R135 to R137). A tag of 0, a message code that names none, an empty zone set, or an empty carrier set is RANGE by its first
check, and so is a carrier-set form that is neither 0 nor 1 (that this is the first check is the model's, entry 30). A tag held is
IN_USE, a message not READY STATE, 16 held requests NO_ROOM. Else the request, its plays done 0, its priority and repeat held at 15
and its repeat 0 where LIVE, joins behind the queued requests of its priority, the player arbiter runs, and the answer lists what was
forced or clamped and where the request stands, on a player or at a queue place, and the mark of one queued below the mask (player and
place as fields that may be absent, then the mark: the model's layout, entry 13); all the arbiter raises is ANNOUNCE_STARTs, and nothing
else changes. A run of the
arbiter (R143, R144) walks the queue with the blocked zones, at first those of the players that are not IDLE: a request below the mask
is passed over; one clear of them starts on the lowest IDLE player (R141); any other stays queued and sends each running player of
lower priority that it meets to FADE_OUT with REQUEUE; both of these then block their zones. -/
def Obligations.AnncHoldsTheRequest : Prop :=
  (∀ (s : State) (p : TrunkId) (tag : Nat) (a : AnncArgs), s.hears p tag →
    (a.tag = 0 ∨ codeMessage a.message = none ∨ BitVec.ofNat 8 a.zones = 0 ∨
        (a.setForm = 0 ∧ BitVec.ofNat 64 a.carriers = 0) ∨ 2 ≤ a.setForm →
      exec (.annc p tag a) s = .next (s.answered p tag 12 .range [])) ∧
    ∀ m : MessageRef, s.breakInOk → a.tag ≠ 0 → codeMessage a.message = some m → BitVec.ofNat 8 a.zones ≠ 0 →
      (a.setForm = 0 ∧ BitVec.ofNat 64 a.carriers ≠ 0 ∨ a.setForm = 1) →
      ((∃ r ∈ s.bku.held, r.tag = a.tag) → exec (.annc p tag a) s = .next (s.answered p tag 12 .inUse [])) ∧
      ((∀ r ∈ s.bku.held, r.tag ≠ a.tag) → s.ast.ready m = false → exec (.annc p tag a) s = .next (s.answered p tag 12 .state [])) ∧
      ((∀ r ∈ s.bku.held, r.tag ≠ a.tag) → s.ast.ready m = true →
        (s.bku.held.length = 16 → exec (.annc p tag a) s = .next (s.answered p tag 12 .noRoom [])) ∧
        (s.bku.held.length < 16 →
          let r : AnnRequest := {
            tag := a.tag, message := m, priority := min a.priority 15, plays := if m = .live then 0 else min a.plays 15,
            gap := a.gap, zones := BitVec.ofNat 8 a.zones,
            carriers := if a.setForm = 1 then .all else .only (BitVec.ofNat 64 a.carriers), playsDone := 0 }
          let ahead := fun q : AnnRequest => decide (r.priority ≤ q.priority)
          let mask := s.ict.row.announceMask
          let b := Bku.arbiter mask
            ⟨{ s.bku with queue := s.bku.queue.takeWhile ahead ++ r :: s.bku.queue.dropWhile ahead }, []⟩
          let t : State := { s with bku := b.unit, mga := s.mga.raiseAll b.out }
          exec (.annc p tag a) s = .next (t.answered p tag 12 .ok
              (changedFields [(2, decide (15 < a.priority)), (3, r.plays != a.plays)] ++
                let on := fun x : Player => x.request.any fun q => q.tag == r.tag
                let place := b.unit.queue.findIdx? fun q => q.tag == r.tag
                (if on b.unit.bp0 then [1, 0] else if on b.unit.bp1 then [1, 1] else [0, 0]) ++
                (match place with
                  | some k => [1, BitVec.ofNat 8 k]
                  | none => [0, 0]) ++
                [if place.isSome ∧ r.priority < mask then 1 else 0])) ∧
            t.bku.held.Perm (r :: s.bku.held) ∧ t.bku.params = s.bku.params ∧ t.bku.lastWork = s.bku.lastWork ∧
            ∀ n ∈ b.out, ∃ q id, n = .announceStart q.tag id q.message q.playsDone ∧ q ∈ r :: s.bku.queue))) ∧
  (∀ (mask : Nat) (b : Bku), Bku.arbiter mask b =
    let zonesOf := fun x : Player => if x.state = .idle then 0 else (x.request.map (·.zones)).getD 0
    let w := Bku.walk mask b.unit.queue (zonesOf b.unit.bp0 ||| zonesOf b.unit.bp1) b
    { w.2 with unit := { w.2.unit with queue := w.1 } }) ∧
  ∀ (mask : Nat) (q : AnnRequest) (rest : List AnnRequest) (blocked : GroupSet) (b : Bku),
    let w := Bku.walk mask (q :: rest) blocked b
    let clear := q.zones &&& blocked = 0
    let started := fun id : PlayerId => (⟨b.unit.setPlayer id { b.unit.player id with
      state := .fadeIn, request := some q, intent := none, fade := 0, phase := 0, progress := 0, gapLeft := 0, liveMiss := 0 },
      b.out ++ [.announceStart q.tag id q.message q.playsDone]⟩ : Bku)
    let yields := fun x : Player =>
      if (x.state = .fadeIn ∨ x.state = .playing ∨ x.state = .gap) ∧
          (x.request.any fun o => decide (o.priority < q.priority ∧ o.zones &&& q.zones ≠ 0)) = true then
        { x with state := .fadeOut, intent := some .requeue } else x
    Bku.walk mask [] blocked b = ([], b) ∧
    (q.priority < mask → let v := Bku.walk mask rest blocked b
      w = (q :: v.1, v.2)) ∧
    (mask ≤ q.priority → clear → b.unit.bp0.state = .idle → w = Bku.walk mask rest (blocked ||| q.zones) (started .bp0)) ∧
    (mask ≤ q.priority → clear → b.unit.bp0.state ≠ .idle → b.unit.bp1.state = .idle →
      w = Bku.walk mask rest (blocked ||| q.zones) (started .bp1)) ∧
    (mask ≤ q.priority → ¬clear ∨ (b.unit.bp0.state ≠ .idle ∧ b.unit.bp1.state ≠ .idle) →
      let v := Bku.walk mask rest (blocked ||| q.zones)
        { b with unit := { b.unit with bp0 := yields b.unit.bp0, bp1 := yields b.unit.bp1 } }
      w = (q :: v.1, v.2))

/-- ANCAN (R138): tag 0 is RANGE and a tag that names no held request NOT_FOUND. A queued request stops being held, with
ANNOUNCE_END(CANCELLED) raised first. A request on a player stays held, and the player fades out from its fade value with intent
END(CANCELLED). Then the player arbiter runs, and all it raises is ANNOUNCE_STARTs. Nothing but the break-in unit, the notices and
the answer changes. -/
def Obligations.AncanCancelsTheRequest : Prop :=
  ∀ (s : State) (p : TrunkId) (tag n : Nat), s.hears p tag → s.breakInOk →
    (n = 0 → exec (.ancan p tag n) s = .next (s.answered p tag 13 .range [])) ∧
    (n ≠ 0 → (∀ r ∈ s.bku.held, r.tag ≠ n) → exec (.ancan p tag n) s = .next (s.answered p tag 13 .notFound [])) ∧
    ∀ r : AnnRequest, n ≠ 0 → r.tag = n →
      let after := fun b : Bku => ({ s with bku := b.unit, mga := s.mga.raiseAll b.out } : State)
      let starts := fun ns : List Notice => ∀ x ∈ ns, ∃ q id, x = .announceStart q.tag id q.message q.playsDone ∧ q ∈ s.bku.queue
      (r ∈ s.bku.queue →
        let b := Bku.arbiter s.ict.row.announceMask
          ⟨{ s.bku with queue := s.bku.queue.filter fun q => q.tag != n }, [.announceEnd n .cancelled r.playsDone]⟩
        exec (.ancan p tag n) s = .next ((after b).answered p tag 13 .ok []) ∧
          (after b).bku.held.Perm (s.bku.held.filter fun q => q.tag != n) ∧
          (∃ more, starts more ∧ b.out = .announceEnd n .cancelled r.playsDone :: more) ∧
          b.unit.params = s.bku.params ∧ b.unit.lastWork = s.bku.lastWork) ∧
      ∀ id : PlayerId, (s.bku.player id).request = some r →
        let x : Player := { s.bku.player id with state := .fadeOut, intent := some (.finish .cancelled) }
        let b := Bku.arbiter s.ict.row.announceMask ⟨s.bku.setPlayer id x, []⟩
        exec (.ancan p tag n) s = .next ((after b).answered p tag 13 .ok []) ∧
          (after b).bku.held.Perm s.bku.held ∧ (after b).bku.player id = x ∧ starts b.out ∧
          b.unit.params = s.bku.params ∧ b.unit.lastWork = s.bku.lastWork

/-- TIMSET stores the holdover limit as given and the trim within -127..127 (R130); VOXSET stores the four player parameters
within their ranges (R155). Each answers with the list of what it clamped, and changes nothing else. -/
def Obligations.TimsetAndVoxsetStoreTheirValues : Prop :=
  ∀ (s : State) (p : TrunkId) (tag : Nat), s.hears p tag →
    (∀ (limit : Nat) (v : Int), exec (.timset p tag limit v) s = .next
      (({ s with fps := { s.fps with holdLimit := limit, trim := if v < -127 then -127 else if 127 < v then 127 else v } } : State).answered
        p tag 23 .ok (if v < -127 ∨ 127 < v then [1, 1] else [0]))) ∧
    ∀ a : VoxsetArgs, exec (.voxset p tag a) s = .next (({ s with bku := { s.bku with params :=
      { deviation := if 31 < a.deviation then 31 else a.deviation
        amplitude := if 4096 < a.amplitude then 4096 else a.amplitude
        fadeStep := if a.fadeStep = 0 then 1 else if 4096 < a.fadeStep then 4096 else a.fadeStep
        liveGain := a.liveGain } } } : State).answered p tag 14 .ok
      (changedFields [(0, decide (31 < a.deviation)), (1, decide (4096 < a.amplitude)),
        (2, decide (a.fadeStep = 0 ∨ 4096 < a.fadeStep))]))

/-- FADE_END (R147, R142): a fade-in whose next step reaches 4096 makes the player PLAYING at 4096. A fade-out whose next step
reaches 0 makes the player IDLE and carries out its intent: with END the request stops being held and ANNOUNCE_END is raised, with
REQUEUE it joins the queue ahead of every queued request of its priority (R137) and ANNOUNCE_REQUEUED is raised; then the player
arbiter runs over the unit so left, and all it raises is ANNOUNCE_STARTs of requests queued there. Nothing but the break-in unit and
the notices changes. That the row is due at the last step, and does nothing before it, is the model's (entry 1). -/
def Obligations.FadeEndCarriesOutTheIntent : Prop :=
  ∀ (s : State) (id : PlayerId), s.held = false →
    let x := s.bku.player id
    (x.state = .fadeIn → 4096 ≤ x.fade + s.bku.params.fadeStep → exec (.fadeEnd id) s =
      .next { s with bku := s.bku.setPlayer id { x with state := .playing, fade := 4096 } }) ∧
    ((x.state = .fadeIn → x.fade + s.bku.params.fadeStep < 4096) → (x.state = .fadeOut → s.bku.params.fadeStep < x.fade) →
      exec (.fadeEnd id) s = .next s) ∧
    ∀ (r : AnnRequest) (i : Intent), s.breakInOk → x.state = .fadeOut → x.fade ≤ s.bku.params.fadeStep → x.request = some r →
      x.intent = some i →
      let u := s.bku.setPlayer id { x with state := .idle, request := none, intent := none, fade := 0 }
      let ahead := fun q : AnnRequest => decide (r.priority < q.priority)
      let done : Bku := match i with
        | .finish o => ⟨u, [.announceEnd r.tag o r.playsDone]⟩
        | .requeue => ⟨{ u with queue := u.queue.takeWhile ahead ++ r :: u.queue.dropWhile ahead },
          [.announceRequeued r.tag id r.playsDone]⟩
      let b := Bku.arbiter s.ict.row.announceMask done
      exec (.fadeEnd id) s = .next { s with bku := b.unit, mga := s.mga.raiseAll b.out } ∧
        (∃ more, b.out = done.out ++ more ∧
          ∀ n ∈ more, ∃ q p, n = .announceStart q.tag p q.message q.playsDone ∧ q ∈ done.unit.queue) ∧
        (∀ o : AnnOutcome, i = .finish o → s.bku.held.Perm (r :: b.unit.held)) ∧ (i = .requeue → s.bku.held.Perm b.unit.held) ∧
        b.unit.params = s.bku.params ∧ b.unit.lastWork = s.bku.lastWork

/-- GAP_END returns a player whose gap runs out to the first sample, PLAYING where its fade is complete and FADE_IN otherwise
(R150). LIVE_SPEECH_LOSS sends a player of a LIVE request whose live-miss count reaches 400 to FADE_OUT with END(SOURCE_LOST),
its fade kept (R149). Neither changes anything else. That each row is due at its last count is the model's (entry 1). And the work of
a player in a slot: fade (R147), audio from the message's next sample or the speech word (R148, R149), level (R151), repetition
(R150) and synthesis (R152). The work of the unit (R146): IDLE players take no step, intents of players that reached 0 are carried out
(R142), BP0 first, and the arbiter runs once if there was one. A player that is not IDLE covers the LIVE lanes of its zones whose
owners are BROADCAST, eligible and in its carrier set, and those lanes are marked with it, BP0 before BP1 (R153, R154). -/
def Obligations.GapEndAndSpeechLossMoveThePlayer : Prop :=
  (∀ (s : State) (id : PlayerId), s.held = false →
    let x := s.bku.player id
    exec (.gapEnd id) s = .next (if x.state = .gap ∧ x.gapLeft ≤ 1 then
      { s with bku := s.bku.setPlayer id { x with gapLeft := 0, progress := 0, state := if x.fade = 4096 then .playing else .fadeIn } }
      else s) ∧
    ∀ r : AnnRequest, x.request = some r → r.message = .live → (x.state = .fadeIn ∨ x.state = .playing) →
      exec (.liveSpeechLoss id) s = .next (if 399 ≤ x.liveMiss then
        { s with bku := s.bku.setPlayer id { x with state := .fadeOut, intent := some (.finish .sourceLost), liveMiss := 400 } } else s)) ∧
  (∀ (st : Store) (prm : VoxParams) (speech : Option (BitVec 16)) (p : Player) (r : AnnRequest), p.request = some r → p.state ≠ .idle →
    let w := p.work st prm speech
    let fade := match p.state with
      | .fadeIn => min 4096 (p.fade + prm.fadeStep)
      | .fadeOut => p.fade - prm.fadeStep
      | _ => p.fade
    let state := if p.state = .fadeIn ∧ 4096 ≤ p.fade + prm.fadeStep then .playing else p.state
    let message := match r.message with
      | .stored m => st.messages.get m
      | .live => none
    let reads := state == .fadeIn || state == .playing ||
      (state == .fadeOut && decide (p.progress < 512 * (message.map (·.count)).getD 0))
    let sample := message.map fun e => if reads then (st.messageSample e p.progress).toInt * 256 else 0
    let live := if state = .gap then 0 else (speech.map (·.toInt)).getD 0
    let level := fun (value : Int) (gain : Nat) => max (-2048) (min (nearest (value * gain) 65536) 2047)
    let a := if r.message = .live then level live prm.liveGain else level (sample.getD 0) ((message.map (·.gain)).getD 0)
    let phase := fun k : Nat => p.phase + BitVec.ofInt 16 (a * prm.deviation * k)
    let base : Player := { p with fade := fade, state := state, phase := phase 24 }
    let played : AnnRequest := { r with playsDone := min 65535 (r.playsDone + 1) }
    w.fade = fade ∧ w.ended = decide (p.state = .fadeOut ∧ fade = 0) ∧
    (∀ k : Fin 24, let angle := (phase (k.val + 1)).toNat / 64
      w.block.get k = ⟨BitVec.ofInt 16 (nearest (cosTable angle * prm.amplitude) 4096),
        BitVec.ofInt 16 (nearest (sinTable angle * prm.amplitude) 4096)⟩) ∧
    (state = .gap → p.gapLeft ≤ 1 →
      w.player = { base with gapLeft := 0, progress := 0, state := if fade = 4096 then .playing else .fadeIn }) ∧
    (state = .gap → 1 < p.gapLeft → w.player = { base with gapLeft := p.gapLeft - 1 }) ∧
    (state ≠ .gap → r.message = .live →
      (speech.isSome → w.player = { base with liveMiss := 0 }) ∧
      (speech = none → state = .fadeOut → w.player = base) ∧
      (speech = none → state ≠ .fadeOut → p.liveMiss < 399 → w.player = { base with liveMiss := p.liveMiss + 1 }) ∧
      (speech = none → state ≠ .fadeOut → 399 ≤ p.liveMiss →
        w.player = { base with state := .fadeOut, intent := some (.finish .sourceLost), liveMiss := 400 })) ∧
    ∀ (m : MessageId) (e : Message), state ≠ .gap → r.message = .stored m → st.messages.get m = some e →
      (reads = false → w.player = base) ∧
      (reads = true → state = .fadeOut ∨ p.progress + 1 ≠ 512 * e.count → w.player = { base with progress := p.progress + 1 }) ∧
      (state ≠ .fadeOut → p.progress + 1 = 512 * e.count →
        (r.plays = 0 ∨ played.playsDone < r.plays → 0 < r.gap →
          w.player = { base with request := some played, progress := p.progress + 1, state := .gap, gapLeft := r.gap }) ∧
        (r.plays = 0 ∨ played.playsDone < r.plays → r.gap = 0 → w.player = { base with request := some played, progress := 0 }) ∧
        (r.plays ≠ 0 → r.plays ≤ played.playsDone → w.player = { base with
          request := some played, progress := p.progress + 1, state := .fadeOut, intent := some (.finish .completed) }))) ∧
  (∀ (n : FrameNo) (mask : Nat) (st : Store) (prm : VoxParams) (speech : Option (BitVec 16)) (lanes : Table Group 8) (b : Bku),
    let count := fun id : PlayerId =>
      ((List.finRange 8).map fun g => ((List.finRange 32).filter fun l => ((lanes.get g).lanes.get l).player = some id).length).sum
    let after := fun id : PlayerId => if (b.unit.player id).state = .idle then { b.unit.player id with covered := 0 }
      else { ((b.unit.player id).work st prm speech).player with covered := count id }
    let ends := fun id : PlayerId => (b.unit.player id).state != .idle && ((b.unit.player id).work st prm speech).ended
    let stepped : Bku := { b with unit := { b.unit with bp0 := after .bp0, bp1 := after .bp1, lastWork := some n } }
    let first := if ends .bp0 then stepped.finish .bp0 else stepped
    let both := if ends .bp1 then first.finish .bp1 else first
    b.slotWork n mask (b.unit.bp0.slotWork st prm speech) (b.unit.bp1.slotWork st prm speech) lanes =
      if ends .bp0 || ends .bp1 then both.arbiter mask else both) ∧
  (∀ (b : Bku) (id : PlayerId) (r : AnnRequest), (b.unit.player id).request = some r →
    let u := b.unit.setPlayer id { b.unit.player id with state := .idle, request := none, intent := none }
    (∀ o : AnnOutcome, (b.unit.player id).intent = some (.finish o) → b.finish id = ⟨u, b.out ++ [.announceEnd r.tag o r.playsDone]⟩) ∧
    ((b.unit.player id).intent = some .requeue →
      let ahead := fun q : AnnRequest => decide (r.priority < q.priority)
      b.finish id = ⟨{ u with queue := u.queue.takeWhile ahead ++ r :: u.queue.dropWhile ahead },
        b.out ++ [.announceRequeued r.tag id r.playsDone]⟩)) ∧
  ∀ (ctb : Table Carrier 64) (b : BreakIn) (t : Table Group 8) (g : GroupId),
    let covers := fun (x : Player) (y : Lane) => x.state ≠ .idle ∧ y.state = .live ∧ ∃ (r : AnnRequest) (c : CarrierId),
      x.request = some r ∧ y.owner = some c ∧ r.zones.getLsbD g.val = true ∧ (ctb.get c).fields.kind = .broadcast ∧
      (ctb.get c).fields.eligible = true ∧ (r.carriers = .all ∨ ∃ set, r.carriers = .only set ∧ set.getLsbD c.val = true)
    ((markLanes ctb b t).get g).config = (t.get g).config ∧ ((markLanes ctb b t).get g).waiting = (t.get g).waiting ∧
    ∀ l : LaneId, let y := (t.get g).lanes.get l
      let marked := fun id : Option PlayerId => ((markLanes ctb b t).get g).lanes.get l = { y with player := id }
      (covers b.bp0 y → marked (some .bp0)) ∧ (¬covers b.bp0 y → covers b.bp1 y → marked (some .bp1)) ∧
      (¬covers b.bp0 y → ¬covers b.bp1 y → marked none)

/-! ### The announcement store (chapter 8) -/

/-- PGOPEN opens the load buffer on its page with every sample -1, whatever was loaded before; a page of 2048 or above is
RANGE; nothing else changes (R165). -/
def Obligations.PgopenOpensABlankPage : Prop :=
  ∀ (s : State) (p : TrunkId) (tag n : Nat), s.hears p tag →
    (2048 ≤ n → exec (.pgopen p tag n) s = .next (s.answered p tag 15 .range [])) ∧
    ∀ g : PageId, n = g.val → exec (.pgopen p tag n) s =
      .next (({ s with ast := { s.ast with buffer := some ⟨g, .fill 0xFF⟩ } } : State).answered p tag 15 .ok [])

/-- R166: the checks of PGDATA in their order, and the samples written at the offset and the positions after it, every other
sample of the buffer as before; nothing else changes. -/
def Obligations.PgdataWritesTheBuffer : Prop :=
  ∀ (s : State) (p : TrunkId) (tag off : Nat) (bs : List Byte), s.hears p tag →
    (511 < off ∨ bs.length = 0 ∨ 32 < bs.length → exec (.pgdata p tag off bs) s = .next (s.answered p tag 16 .range [])) ∧
    (off ≤ 511 → 1 ≤ bs.length → bs.length ≤ 32 →
      (s.ast.buffer = none → exec (.pgdata p tag off bs) s = .next (s.answered p tag 16 .state [])) ∧
      ∀ l : PageLoad, s.ast.buffer = some l →
        (512 < off + bs.length → exec (.pgdata p tag off bs) s = .next (s.answered p tag 16 .range [])) ∧
        (off + bs.length ≤ 512 → ∃ c : PageContent,
          exec (.pgdata p tag off bs) s =
            .next (({ s with ast := { s.ast with buffer := some ⟨l.page, c⟩ } } : State).answered p tag 16 .ok []) ∧
          (∀ i : Fin 512, i.val < off ∨ off + bs.length ≤ i.val → c.get i = l.content.get i) ∧
          ∀ (i : Fin 512) (k : Nat) (b : Byte), i.val = off + k → bs[k]? = some b → c.get i = b))

/-- R168: the checks of PGCOMMIT in their order. An accepted commit raises the write pointer, closes the buffer, and programs
the page at once where the unit is IDLE, or holds it with its samples, still ERASED; nothing else changes. -/
def Obligations.PgcommitProgramsOrHolds : Prop :=
  ∀ (s : State) (p : TrunkId) (tag : Nat), s.hears p tag →
    (s.ast.buffer = none → exec (.pgcommit p tag) s = .next (s.answered p tag 17 .state [])) ∧
    ∀ l : PageLoad, s.ast.buffer = some l →
      let b := s.ast.blocks.get (blockOf l.page)
      let bars := b.guard = .writeBarred ∨ b.guard = .barred
      let erasing := s.ast.unit = .erasing (blockOf l.page)
      let misplaced := l.page.val % 64 ≠ b.writePointer
      let full := s.ast.unit ≠ .idle ∧ s.ast.holder ≠ none
      (bars → exec (.pgcommit p tag) s = .next (s.answered p tag 17 .barred [])) ∧
      (¬bars → erasing → exec (.pgcommit p tag) s = .next (s.answered p tag 17 .busy [])) ∧
      (¬bars → ¬erasing → misplaced → exec (.pgcommit p tag) s = .next (s.answered p tag 17 .order [])) ∧
      (¬bars → ¬erasing → ¬misplaced → full → exec (.pgcommit p tag) s = .next (s.answered p tag 17 .busy [])) ∧
      (¬bars → ¬erasing → ¬misplaced → ¬full → s.ast.unit = .idle →
        exec (.pgcommit p tag) s = .next (({ s with ast := { s.ast with
          buffer := none
          unit := .programming l
          blocks := s.ast.blocks.put (blockOf l.page)
            { b with writePointer := b.writePointer + 1, pages := b.pages.put (indexOf l.page) .programming } } } : State).answered p tag 17 .accepted [])) ∧
      (¬bars → ¬erasing → ¬misplaced → ¬full → s.ast.unit ≠ .idle →
        exec (.pgcommit p tag) s = .next (({ s with ast := { s.ast with
          buffer := none
          holder := some l
          blocks := s.ast.blocks.put (blockOf l.page) { b with writePointer := b.writePointer + 1 } } } : State).answered p tag 17 .accepted []))

/-- STORE_PROGRAM_COMPLETION (R169, R170): the page is PROGRAMMED with its content, sample by sample, or FAILED; the write
pointer of its block stays; every byte of every other page reads as before; the result enters the history; STORE_DONE is
raised; the held page is taken, or the unit is IDLE. Where no page is being programmed nothing happens (the model's, entry
16). -/
def Obligations.ProgramCompletionStoresThePage : Prop :=
  ∀ (s : State) (r : StoreResult), s.held = false →
    (∀ l : PageLoad, s.ast.unit = .programming l → s.memoryOk → (∀ q, s.ast.holder = some q → q.page ≠ l.page) →
      ∃ t : State, exec (.storeProgramCompletion r) s = .next t ∧
        t.ast.pageState l.page = (match r with | .pass => .programmed | .fail => .failed) ∧
        (∀ g : PageId, g ≠ l.page → (∀ q, s.ast.holder = some q → q.page ≠ g) → t.ast.pageState g = s.ast.pageState g) ∧
        (∀ b : BlockId, (t.ast.blocks.get b).writePointer = (s.ast.blocks.get b).writePointer ∧
          (t.ast.blocks.get b).guard = (s.ast.blocks.get b).guard) ∧
        (r = .pass → ∀ i : Fin 512, t.ast.memory.read (512 * l.page.val + i.val) = l.content.get i) ∧
        (∀ a : Nat, r = .fail ∨ a < 512 * l.page.val ∨ 512 * l.page.val + 512 ≤ a → t.ast.memory.read a = s.ast.memory.read a) ∧
        t.ast.last = some (.program l.page r) ∧ t.ast.previous = s.ast.last ∧
        (s.ast.holder = none → t.ast.unit = .idle ∧ t.ast.holder = none) ∧
        (∀ q, s.ast.holder = some q → t.ast.unit = .programming q ∧ t.ast.holder = none ∧ t.ast.pageState q.page = .programming) ∧
        t.mga = s.mga.raise (.storeProgramDone (blockOf l.page) l.page r) ∧
        t.ast.buffer = s.ast.buffer ∧ t.ast.messages = s.ast.messages ∧ t.ast.settings = s.ast.settings ∧
        t.ast.saving = s.ast.saving ∧ t = { s with ast := t.ast, mga := t.mga }) ∧
    ((∀ l, s.ast.unit ≠ .programming l) → exec (.storeProgramCompletion r) s = .next s)

/-- BLKERASE (R171): the checks in their order; accepted, every page of the block is ERASING and the unit erases it, while
write pointer, guard and erase count of every block stay, and every byte outside the block reads as before. -/
def Obligations.BlkeraseBeginsAnErase : Prop :=
  ∀ (s : State) (p : TrunkId) (tag n : Nat), s.hears p tag →
    (32 ≤ n → exec (.blkerase p tag n) s = .next (s.answered p tag 18 .range [])) ∧
    ∀ b : BlockId, n = b.val →
      let g := (s.ast.blocks.get b).guard
      let bars := g = .eraseBarred ∨ g = .barred
      let inUse := ∃ (m : MessageId) (e : Message) (q : PageId), s.ast.messages.get m = some e ∧
        e.first ≤ q.val ∧ q.val < e.first + e.count ∧ blockOf q = b
      let busy := s.ast.unit ≠ .idle ∨ s.ast.holder ≠ none
      (bars → exec (.blkerase p tag n) s = .next (s.answered p tag 18 .barred [])) ∧
      (¬bars → inUse → exec (.blkerase p tag n) s = .next (s.answered p tag 18 .inUse [])) ∧
      (¬bars → ¬inUse → busy → (∀ (m : MessageId) (e : Message), s.ast.messages.get m = some e → 1 ≤ e.count) →
        exec (.blkerase p tag n) s = .next (s.answered p tag 18 .busy [])) ∧
      (¬bars → ¬inUse → ¬busy → (∀ (m : MessageId) (e : Message), s.ast.messages.get m = some e → 1 ≤ e.count) → s.memoryOk →
        ∃ memory : Memory, exec (.blkerase p tag n) s = .next (({ s with ast := { s.ast with
            unit := .erasing b
            memory := memory
            blocks := s.ast.blocks.edit b fun x => { x with pages := .fill .erasing } } } : State).answered p tag 18 .accepted []) ∧
          ∀ a : Nat, a < 32768 * b.val ∨ 32768 * b.val + 32768 ≤ a → memory.read a = s.ast.memory.read a)

/-- STORE_ERASE_COMPLETION (R172, R170): PASS leaves every page of the block ERASED, its write pointer 0 and a WRITE_BARRED
guard OPEN; FAIL leaves every page FAILED and the write pointer 64; the erase count rises, held at 65535; the result enters the
history and STORE_DONE is raised; a held page is taken and its page is PROGRAMMING, else the unit is IDLE. Other blocks, messages and
memory stay, and nothing else changes. Where no block is being erased nothing happens (the model's, entry 16). -/
def Obligations.EraseCompletionEndsTheErase : Prop :=
  ∀ (s : State) (r : StoreResult), s.held = false →
    (∀ b : BlockId, s.ast.unit = .erasing b →
      let x := s.ast.blocks.get b
      let blocks := s.ast.blocks.put b (match r with
        | .pass => ⟨if x.guard = .writeBarred then .opened else x.guard, 0, min (x.eraseCount + 1) 65535, .fill .erased⟩
        | .fail => ⟨x.guard, 64, min (x.eraseCount + 1) 65535, .fill .failed⟩)
      (s.ast.holder = none → exec (.storeEraseCompletion r) s = .next { s with
        ast := { s.ast with
          unit := .idle
          previous := s.ast.last
          last := some (.erase b r)
          blocks := blocks }
        mga := s.mga.raise (.storeEraseDone b r) }) ∧
      ∀ q : PageLoad, s.ast.holder = some q →
        let y := blocks.get (blockOf q.page)
        exec (.storeEraseCompletion r) s = .next { s with
          ast := { s.ast with
            unit := .programming q
            holder := none
            previous := s.ast.last
            last := some (.erase b r)
            blocks := blocks.put (blockOf q.page) { y with pages := y.pages.put (indexOf q.page) .programming } }
          mga := s.mga.raise (.storeEraseDone b r) }) ∧
    ((∀ b, s.ast.unit ≠ .erasing b) → exec (.storeEraseCompletion r) s = .next s)

/-- BLKGUARD moves a guard by Table 8-2 and changes nothing else; a bar-write on a block with a page in flight or being erased
is refused BUSY, unless the guard bars writing already (R173). -/
def Obligations.BlkguardRaisesABar : Prop :=
  ∀ (s : State) (p : TrunkId) (tag n bar : Nat), s.hears p tag →
    (32 ≤ n ∨ 2 ≤ bar → exec (.blkguard p tag n bar) s = .next (s.answered p tag 19 .range [])) ∧
    ∀ b : BlockId, n = b.val →
      let g := (s.ast.blocks.get b).guard
      let set (h : GuardState) : State := { s with ast := { s.ast with blocks := s.ast.blocks.edit b fun x => { x with guard := h } } }
      let inFlight := (∃ l, s.ast.unit = .programming l ∧ blockOf l.page = b) ∨ (∃ l, s.ast.holder = some l ∧ blockOf l.page = b) ∨
        s.ast.unit = .erasing b
      (bar = 0 → exec (.blkguard p tag n bar) s = .next ((set (match g with
        | .opened => .eraseBarred
        | .writeBarred => .barred
        | .eraseBarred => .eraseBarred
        | .barred => .barred)).answered p tag 19 .ok [])) ∧
      (bar = 1 → (g = .writeBarred ∨ g = .barred) → exec (.blkguard p tag n bar) s = .next (s.answered p tag 19 .ok [])) ∧
      (bar = 1 → (g = .opened ∨ g = .eraseBarred) → inFlight → exec (.blkguard p tag n bar) s = .next (s.answered p tag 19 .busy [])) ∧
      (bar = 1 → g = .opened → ¬inFlight → exec (.blkguard p tag n bar) s = .next ((set .writeBarred).answered p tag 19 .ok [])) ∧
      (bar = 1 → g = .eraseBarred → ¬inFlight → exec (.blkguard p tag n bar) s = .next ((set .barred).answered p tag 19 .ok []))

/-- MSGDEF (R175): numbers out of range are RANGE, a READY entry IN_USE, a run past page 2047 RANGE, a run with a page that is
not PROGRAMMED STATE; else the entry is READY with the values as given, and nothing else changes. -/
def Obligations.MsgdefNamesProgrammedPages : Prop :=
  ∀ (s : State) (p : TrunkId) (tag : Nat) (a : MsgdefArgs), s.hears p tag →
    (47 < a.message ∨ 2047 < a.first ∨ a.count = 0 ∨ 256 < a.count →
      exec (.msgdef p tag a) s = .next (s.answered p tag 20 .range [])) ∧
    ∀ m : MessageId, a.message = m.val → a.first ≤ 2047 → 1 ≤ a.count → a.count ≤ 256 →
      (s.ast.messages.get m ≠ none → exec (.msgdef p tag a) s = .next (s.answered p tag 20 .inUse [])) ∧
      (s.ast.messages.get m = none → 2048 < a.first + a.count → exec (.msgdef p tag a) s = .next (s.answered p tag 20 .range [])) ∧
      (s.ast.messages.get m = none → a.first + a.count ≤ 2048 →
        ((∃ q : PageId, a.first ≤ q.val ∧ q.val < a.first + a.count ∧ s.ast.pageState q ≠ .programmed) →
          exec (.msgdef p tag a) s = .next (s.answered p tag 20 .state [])) ∧
        ((∀ q : PageId, a.first ≤ q.val → q.val < a.first + a.count → s.ast.pageState q = .programmed) →
          exec (.msgdef p tag a) s = .next (({ s with ast := { s.ast with
            messages := s.ast.messages.put m (some ⟨a.first, a.count, a.gain⟩) } } : State).answered p tag 20 .ok [])))

/-- R176: MSGCLR with a number above 47 is RANGE; while a held request names the message it is IN_USE; else the entry is
EMPTY, the answer OK, and no page or byte changes. -/
def Obligations.MsgclrEmptiesTheEntry : Prop :=
  ∀ (s : State) (p : TrunkId) (tag n : Nat), s.hears p tag →
    (47 < n → exec (.msgclr p tag n) s = .next (s.answered p tag 21 .range [])) ∧
    ∀ m : MessageId, n = m.val →
      let named := ∃ r, (r ∈ s.bku.queue ∨ s.bku.bp0.request = some r ∨ s.bku.bp1.request = some r) ∧ r.message = .stored m
      (named → exec (.msgclr p tag n) s = .next (s.answered p tag 21 .inUse [])) ∧
      (¬named → exec (.msgclr p tag n) s =
        .next (({ s with ast := { s.ast with messages := s.ast.messages.put m none } } : State).answered p tag 21 .ok []))

/-- SAVE takes the snapshot of the state as it stands, an ACTIVE carrier as DEFINED with start-active set, makes the area
invalid and answers ACCEPTED; while a save runs it is BUSY (R177). The completion raises SETTINGS_DONE and makes the area
valid with that snapshot on PASS, leaves it invalid on FAIL (R178). Nothing else changes. A completion with no save under way
does nothing (the model's, entry 16). -/
def Obligations.SaveTakesAndWritesASnapshot : Prop :=
  ∀ s : State,
    (∀ (p : TrunkId) (tag : Nat), s.hears p tag →
      (s.ast.saving ≠ none → exec (.save p tag) s = .next (s.answered p tag 24 .busy [])) ∧
      (s.ast.saving = none → ∃ x : Snapshot,
        exec (.save p tag) s =
          .next (({ s with ast := { s.ast with settings := none, saving := some x } } : State).answered p tag 24 .accepted []) ∧
        x.profile = s.ict.profile ∧ x.lineLevel = s.ict.lineLevel ∧ x.params = s.bku.params ∧ x.holdLimit = s.fps.holdLimit ∧
        x.trim = s.fps.trim ∧ (∀ g : GroupId, x.groups.get g = configOf s.lal g) ∧
        ∀ c : CarrierId,
          ((x.carriers.get c).state = if (s.ctb.get c).state = .free then .free else .defined) ∧
          ((x.carriers.get c).fields = if (s.ctb.get c).state = .active then { (s.ctb.get c).fields with startActive := true }
            else (s.ctb.get c).fields) ∧
          ∀ g : GroupId, ((x.carriers.get c).placements.get g).map (·.trim) = ((s.ctb.get c).placements.get g).map (·.trim))) ∧
    (s.held = false → ∀ r : StoreResult,
      (s.ast.saving = none → exec (.settingsSaveCompletion r) s = .next s) ∧
      ∀ x : Snapshot, s.ast.saving = some x → exec (.settingsSaveCompletion r) s = .next { s with
        ast := { s.ast with settings := (match r with | .pass => some x | .fail => none), saving := none }
        mga := s.mga.raise (.settingsDone r) })

/-! ### Incident levels (chapter 9) -/

/-- INCSET stores its level, held at 3, as the commanded level; INCCLR is refused STATE while the last sample is asserted, with an
empty body (the empty body is the model's choice, entry 32), and else makes the latched level 0; each that is carried out answers with
the effective level after the request (R183, R184). An event that leaves the
effective level changes nothing else; one that changes it raises INCIDENT first, with cause COMMAND, then sheds, unsheds and runs the
arbiter in every served group, then takes a change of announce mask, under the row then current (R185), and changes nothing else.
Shedding (R40, R41): each HELD or WAITING placement of a MOBILE carrier at or above the shed rank is SHED, its lane FREE with closed
gates or its entry gone, with PLACEMENT(SHED); unshedding (R42): each SHED placement below it joins the tail of its class. A change of
mask (R145) sends each running player below the new mask to FADE_OUT with REQUEUE and runs the player arbiter. -/
def Obligations.IncsetAndIncclrMoveTheLevels : Prop :=
  (∀ (s : State) (p : TrunkId) (tag : Nat), s.hears p tag →
    (s.ict.asserted = true → exec (.incclr p tag) s = .next (s.answered p tag 10 .state [])) ∧
    ∀ (set : Bool) (n : Nat), (set = false → s.ict.asserted = false) →
      let i : Incident := if set then { s.ict with commanded := Fin.ofNat 4 (min n 3) } else { s.ict with latched := 0 }
      let c : Instr := if set then .incset p tag n else .incclr p tag
      let code := if set then 9 else 10
      let body := (if set then (if 3 < n then [1, 0] else [0]) else []) ++ be 1 (max i.latched i.commanded).val
      (max i.latched i.commanded = max s.ict.latched s.ict.commanded →
        exec c s = .next (({ s with ict := i } : State).answered p tag code .ok body)) ∧
      (max i.latched i.commanded ≠ max s.ict.latched s.ict.commanded →
        let row := i.profile.get (max i.latched i.commanded)
        let a := s.alloc.incident row
        let b := s.bkuView.maskChange (s.ict.profile.get (max s.ict.latched s.ict.commanded)).announceMask row.announceMask
        let t : State := { s with
          ict := i
          ctb := a.ctb
          lal := a.lal
          ucb := { s.ucb with gates := a.gates }
          bku := b.unit
          mga := s.mga.raiseAll (.incident (max i.latched i.commanded) i.latched i.commanded i.lineLevel .command :: (a.out ++ b.out)) }
        exec c s = .next (t.answered p tag code .ok body) ∧
          (∀ d : CarrierId, (t.ctb.get d).fields = (s.ctb.get d).fields ∧ (t.ctb.get d).state = (s.ctb.get d).state) ∧
          ∀ g : GroupId, configOf t.lal g = configOf s.lal g)) ∧
  (∀ (a : Alloc) (row : ProfileRow),
    let mobile := fun (b : Alloc) (c : CarrierId) => (b.ctb.get c).fields.kind = .mobile ∧ row.shedRank ≤ (b.ctb.get c).fields.rank
    let free := fun (b : Alloc) (g : GroupId) (l : LaneId) => { b with
      lal := b.lal.edit g fun x => { x with lanes := x.lanes.put l ⟨.free, none, 0, none⟩ }
      gates := b.gates.edit g fun x => x.put l (.fill ⟨.closed, 0⟩) }
    let shed := fun (b : Alloc) (g : GroupId) (c : CarrierId) (l : Option LaneId) =>
      { b.setPlacement c g (some .shed) with out := b.out ++ [.placement c g .shed l] }
    let shedding := fun (g : GroupId) (b : Alloc) (c : CarrierId) =>
      match (b.ctb.get c).fields.kind, decide (row.shedRank ≤ (b.ctb.get c).fields.rank), b.placementState c g with
      | .mobile, true, some .held => shed (((b.laneOf g c).map (free b g)).getD b) g c (b.laneOf g c)
      | .mobile, true, some .waiting => shed (b.setWaiting g ((b.waiting g).filter fun d => d != c)) g c none
      | _, _, _ => b
    let unshedding := fun (g : GroupId) (b : Alloc) (c : CarrierId) =>
      if b.placementState c g = some .shed ∧ (b.ctb.get c).fields.rank < row.shedRank then
        (b.setPlacement c g (some .waiting)).joinTail g c else b
    (a.incident row = (List.finRange 8).foldl (fun b g => if (configOf b.lal g).form = .unused then b
      else Alloc.arbiter g row ((List.finRange 64).foldl (unshedding g) ((List.finRange 64).foldl (shedding g) b))) a) ∧
    (∀ (c : CarrierId) (g : GroupId), ¬mobile a c → shedding g a c = a) ∧
    ∀ (g : GroupId) (c : CarrierId), a.joinTail g c =
      let classOf : CarrierId → Nat := fun d => match (a.ctb.get d).fields.kind with
        | .rescue => 0
        | .broadcast => 1
        | .mobile => 2
      let ahead := fun d : CarrierId => decide (classOf d ≤ classOf c)
      a.setWaiting g ((a.waiting g).takeWhile ahead ++ c :: (a.waiting g).dropWhile ahead)) ∧
  ∀ (old new : Nat) (b : Bku),
    let drops := fun x : Player =>
      if (x.state = .fadeIn ∨ x.state = .playing ∨ x.state = .gap) ∧ (x.request.any fun o => decide (o.priority < new)) = true then
        { x with state := .fadeOut, intent := some .requeue } else x
    (old = new → b.maskChange old new = b) ∧
    (old ≠ new → b.maskChange old new =
      Bku.arbiter new { b with unit := { b.unit with bp0 := drops b.unit.bp0, bp1 := drops b.unit.bp1 } })

/-- A PROFSET whose codes all name something stores its row and the line level, within their ranges (R187). Where the row is
not the current one nothing else changes; where it is, the INCIDENT event follows, even if nothing changed: INCIDENT first, with cause
PROFILE, then shedding, unshedding and the arbiters, then the change of announce mask (R185). A row or a code that names nothing is
RANGE. -/
def Obligations.ProfsetWritesARow : Prop :=
  ∀ (s : State) (p : TrunkId) (tag : Nat) (a : ProfsetArgs), s.hears p tag →
    (4 ≤ a.row ∨ codeBool a.talkAuto = none ∨ codeBool a.broadcastPreempt = none ∨ codeBool a.protectBreakIn = none →
      exec (.profset p tag a) s = .next (s.answered p tag 11 .range [])) ∧
    ∀ (row : Level) (talk pre prot : Bool),
      a.row = row.val → codeBool a.talkAuto = some talk → codeBool a.broadcastPreempt = some pre → codeBool a.protectBreakIn = some prot →
      let new : ProfileRow := ⟨min a.announceMask 15, talk, pre, min a.shedRank 16, prot⟩
      let i : Incident := { s.ict with
        profile := s.ict.profile.put row new
        lineLevel := Fin.ofNat 4 (max 1 (min a.lineLevel 3)) }
      let body := changedFields [(1, decide (15 < a.announceMask)), (4, decide (16 < a.shedRank)),
        (6, decide (a.lineLevel = 0 ∨ 3 < a.lineLevel))]
      (row ≠ max s.ict.latched s.ict.commanded →
        exec (.profset p tag a) s = .next (({ s with ict := i } : State).answered p tag 11 .ok body)) ∧
      (row = max s.ict.latched s.ict.commanded →
        let x := s.alloc.incident new
        let b := s.bkuView.maskChange (s.ict.profile.get row).announceMask new.announceMask
        let t : State := { s with
          ict := i
          ctb := x.ctb
          lal := x.lal
          ucb := { s.ucb with gates := x.gates }
          bku := b.unit
          mga := s.mga.raiseAll (.incident row i.latched i.commanded i.lineLevel .profile :: (x.out ++ b.out)) }
        exec (.profset p tag a) s = .next (t.answered p tag 11 .ok body) ∧
          ∀ d : CarrierId, (t.ctb.get d).fields = (s.ctb.get d).fields ∧ (t.ctb.get d).state = (s.ctb.get d).state)

/-! ### Resets (chapter 10) -/

/-- RESTART with a form that is neither KEEP nor RELOAD is RANGE; while the write unit, the holder or a save is busy it is
BUSY; else the pending-restart flag is set with the form (R203). CAUSECLR clears the reset-cause record (R202). Neither
changes anything else. -/
def Obligations.RestartAndCauseclrSetTheAgent : Prop :=
  ∀ (s : State) (p : TrunkId) (tag : Nat), s.hears p tag →
    (∀ n : Nat,
      let busy := s.ast.unit ≠ .idle ∨ s.ast.holder ≠ none ∨ s.ast.saving ≠ none
      (2 ≤ n → exec (.restart p tag n) s = .next (s.answered p tag 25 .range [])) ∧
      (n ≤ 1 → busy → exec (.restart p tag n) s = .next (s.answered p tag 25 .busy [])) ∧
      (n ≤ 1 → ¬busy → exec (.restart p tag n) s = .next
        (({ s with mga := { s.mga with restart := some (if n = 0 then .keep else .reload) } } : State).answered p tag 25 .ok []))) ∧
    exec (.causeclr p tag) s =
      .next (({ s with mga := { s.mga with causes := ⟨false, false, false, .none, 0⟩ } } : State).answered p tag 26 .ok [])

/-- POWER_ON and LINE_RESET take effect at once: the hub is held, sends no frames, and every block stands at the reset values of its
chapter (R20, R27, R46, R68, R95, R114, R133, R134, R160, R190), the notice queue empty and no restart pending; power-on clears the
reset-cause record and sets POWER_ON alone with count 1, LINE sets LINE and counts one more (R202, R204). What was in flight in the
store is cut short: a page being programmed is FAILED, a held page dropped and its block's pointer back at its index, a block being
erased FAILED with pointer 64 and one erase more; contents, messages and settings are retained (R180). That a reset input held
already makes no new LINE reset is the model's (entry 6), and so are the values here of fields of its own: the rate kept as a number
and its draws (entry 9), no frame sent and no port settled yet (entry 4), and the last slot closed as absent (entry 13). -/
def Obligations.PowerOnAndLineResetAtOnce : Prop :=
  ∀ s : State,
    let failed := fun (b : StoreBlock) (k : Fin 64) => { b with pages := b.pages.put k .failed }
    let cut := match s.ast.unit with
      | .idle => s.ast.blocks
      | .programming l => s.ast.blocks.edit (blockOf l.page) fun b => failed b (indexOf l.page)
      | .erasing e => s.ast.blocks.edit e fun b =>
        { b with writePointer := 64, eraseCount := min 65535 (b.eraseCount + 1), pages := .fill .failed }
    let blocks := match s.ast.holder with
      | none => cut
      | some q => cut.edit (blockOf q.page) fun b => { b with writePointer := (indexOf q.page).val }
    let trunk : TrunkPort := ⟨[], .down, 0, 0, .none, none, 0, 0, 0, 0, 0⟩
    let context : Context := ⟨.idle, none, 0, 0, 0, 0, 0, 0, 0⟩
    let player : Player := ⟨.idle, none, none, 0, 0, 0, 0, 0, 0⟩
    let profile : Table ProfileRow 4 := ⟨#v[⟨0, false, false, 16, false⟩, ⟨4, false, false, 16, false⟩, ⟨8, true, false, 12, true⟩,
      ⟨12, true, true, 8, true⟩]⟩
    let reset := fun (causes : CauseRecord) (pins : Pins) => ({
      fps := {
        hfn := none, ref := .freeRun, holdCount := 0, holdLimit := 4800000, trim := 0, heldRate := 0, rateDraws := s.fps.rateDraws }
      tif := { a := trunk, b := trunk, settled := none, outA := none, outB := none }
      ctb := .fill ⟨.free, ⟨.mobile, 0, none, none, 4096, 4096, 0, 0, 0, 0, .off, 4096, false, false⟩, .fill none⟩
      lal := .fill ⟨⟨.unused, 1, 2 ^ 36 - 1, 1024, 16, 64⟩, .fill ⟨.free, none, 0, none⟩, []⟩
      dmx := .fill ⟨4096, 0, .quiet, 0, false, none⟩
      sif := {
        ports := .fill ⟨.down, 0, 0, false, 0, 0, 0, 0, 0, 0⟩
        remotes := .fill (.fill ⟨.a, false, none, none, context, context⟩)
        out := .fill none }
      ucb := {
        window := [], gates := .fill (.fill (.fill ⟨.closed, 0⟩)), history := .fill [], lastClose := .fill none, lastClosed := none
        uplink := .fill (.fill ⟨0, 0⟩) }
      bku := { queue := [], bp0 := player, bp1 := player, params := ⟨12, 2048, 32, 4096⟩, lastWork := none }
      ast := { s.ast with
        blocks := blocks, buffer := none, unit := .idle, holder := none, last := none, previous := none, saving := none }
      ict := ⟨false, 0, 0, 0, 2, profile, none⟩
      mga := { queue := [], lost := false, respA := none, respB := none, causes := causes, restart := none }
      pins := pins
      pending := s.pending } : State)
    exec .powerOn s = .next (reset ⟨true, false, false, .powerOn, 1⟩ { s.pins with powerHold := true }) ∧
    (s.pins.resetInput = false → exec .lineReset s = .next (reset
      { s.mga.causes with line := true, last := .line, count := min 255 (s.mga.causes.count + 1) } { s.pins with resetInput := true })) ∧
    (s.pins.resetInput = true → exec .lineReset s = .next s)

/-- Leaving reset. That the hub leaves it only when the last of its two holds ends, and that the end of a hold not in force does
nothing, is the model's (entry 6); that start-up is done at that moment is its inference (entry 7). Start-up (R205): START is the
oldest notice. With no valid area its outcome is ABSENT and the blocks keep their reset values; with one it is LOADED: group
configurations and their remotes set up anew, profile and line level, carriers with fields and trims, a FREE one FREE, any other
DEFINED, player parameters, holdover limit and trim are those of the area, and the start-active carriers are activated in ascending
number (R20, R27, R178), START counting those made and those a check of R12 refused. A pending RESTART takes effect so at once (R203):
RELOAD as after a power-on, KEEP with outcome KEPT over the hub reset but for its group configurations, profile and line level,
carriers, parameters, limit and trim, those that were ACTIVE activated again (R21), and with its own cause (R202); with none pending RESTART_TAKES_EFFECT does nothing (the model's, entry 24). -/
def Obligations.LeavingResetStartsUp : Prop :=
  let counted := fun (row : ProfileRow) (x : Alloc × Nat × Nat) (c : CarrierId) => match x.1.activationRefusal c with
    | none => (x.1.activate row c, x.2.1 + 1, x.2.2)
    | some _ => (x.1, x.2.1, x.2.2 + 1)
  let started := fun (u : State) (o : SettingsOutcome) (ids : List CarrierId) =>
    let x := ids.foldl (counted (u.ict.profile.get 0)) (u.alloc, 0, 0)
    ({ u with
      ctb := x.1.ctb
      lal := x.1.lal
      ucb := { u.ucb with gates := x.1.gates }
      mga := Agent.raiseAll { u.mga with queue := [⟨.start u.mga.causes o x.2.1 x.2.2, 1⟩] } x.1.out } : State)
  let bare := fun t : Table (Option Placement) 8 => (.make fun g => (t.get g).map fun q => { q with state := none } : Table (Option Placement) 8)
  let lanes := fun c : GroupConfig => (⟨c, .fill ⟨.free, none, 0, none⟩, []⟩ : Group)
  let remotes := fun c : GroupConfig => (.make fun k =>
    let used := c.form != .unused && decide (k.val < c.remotes)
    let unused : Context := ⟨.idle, none, 0, 0, 0, 0, 0, 0, 0⟩
    let fresh : Context := { unused with state := .waiting, reason := some .new }
    ⟨.a, false, none, none, if used then fresh else unused, if used && c.form == .ring then fresh else unused⟩ : Table Remote 6)
  let loaded := fun (u : State) (x : Snapshot) => started { u with
    lal := .make fun g => lanes (x.groups.get g)
    sif := { u.sif with remotes := .make fun g => remotes (x.groups.get g) }
    ict := ⟨false, 0, 0, 0, x.lineLevel, x.profile, none⟩
    ctb := .make fun c => if (x.carriers.get c).state = .free then
        ⟨.free, ⟨.mobile, 0, none, none, 4096, 4096, 0, 0, 0, 0, .off, 4096, false, false⟩, .fill none⟩
      else ⟨.defined, (x.carriers.get c).fields, bare (x.carriers.get c).placements⟩
    bku := { u.bku with params := x.params }
    fps := { u.fps with holdLimit := x.holdLimit, trim := x.trim } }
    .loaded ((List.finRange 64).filter fun c => (x.carriers.get c).state != .free && (x.carriers.get c).fields.startActive)
  ∀ s : State,
    (s.mga.queue = [] →
      let u : State := { s with pins := ⟨false, false⟩ }
      ∀ c : Instr, (s.pins = ⟨true, false⟩ ∧ c = .resetInputRelease) ∨ (s.pins = ⟨false, true⟩ ∧ c = .suppliesSteady) →
        (s.ast.settings = none → exec c s = .next { u with mga := { s.mga with queue := [⟨.start s.mga.causes .absent 0 0, 1⟩] } }) ∧
        ∀ x : Snapshot, s.ast.settings = some x → exec c s = .next (loaded u x)) ∧
    (s.pins.resetInput = false → exec .resetInputRelease s = .next s) ∧ (s.pins.powerHold = false → exec .suppliesSteady s = .next s) ∧
    (s.pins = ⟨true, true⟩ → exec .resetInputRelease s = .next { s with pins := ⟨false, true⟩ } ∧
      exec .suppliesSteady s = .next { s with pins := ⟨true, false⟩ }) ∧
    (s.mga.restart = none → exec .restartTakesEffect s = .next s) ∧
    ∀ f : RestartForm, s.held = false → s.mga.restart = some f → ∃ z : State, exec .powerOn s = .next z ∧
      let u : State := { z with
        pins := ⟨false, false⟩
        mga := { z.mga with causes := ⟨s.mga.causes.powerOn, s.mga.causes.line, true,
          (match f with | .keep => .restartKeep | .reload => .restartReload), min 255 (s.mga.causes.count + 1)⟩ } }
      (f = .reload → s.ast.settings = none → exec .restartTakesEffect s = .next (started u .absent [])) ∧
      (f = .reload → ∀ x : Snapshot, s.ast.settings = some x → exec .restartTakesEffect s = .next (loaded u x)) ∧
      (f = .keep → exec .restartTakesEffect s = .next (started { u with
        fps := { u.fps with holdLimit := s.fps.holdLimit, trim := s.fps.trim }
        lal := .make fun g => lanes (configOf s.lal g)
        sif := { u.sif with remotes := .make fun g => remotes (configOf s.lal g) }
        ctb := .make fun c => let r := s.ctb.get c
          ⟨if r.state = .active then .defined else r.state, r.fields, bare r.placements⟩
        bku := { u.bku with params := s.bku.params }
        ict := { u.ict with lineLevel := s.ict.lineLevel, profile := s.ict.profile } }
        .kept ((List.finRange 64).filter fun c => (s.ctb.get c).state = .active)))

/-! ### The slot event -/

/-- SLOT on a hub that is not held and has no restart pending is the slot event of the next HFN (R125): HFN rises by one, from 0 after
a reset; both trunk ports send a frame of it with the same lane blocks, each with its port's response (R124); the window's slot of that
HFN is open (R97). With a restart pending that takes effect in its place (R203). And the whole of it: both ports consume and settle
(R117, R120), the reference state follows (R127, R128), the guard step and the marks give the lane tables (R29), each group with a form
has its limiter updated (R47, R48), each port is judged (R71), slot n-4 closes if open and slot n opens empty (R97), the players work
(R146), and each enabled port that is not quiet is sent its frame (R30, R90, R91). Then come the line sample and the two cells (R188,
R193): a request has the effect of the command of its own (R191, R192), an RDREC reads what its side of the works leaves. At last both
frames are completed: where a port is settled ACTIVE and the queue is not empty, its frame takes the oldest entry with the lost flag,
which is then clear, and no other notice is sent (R198). In which order the works raise their notices, and where an expiry falls, is in
SLOT's operand, as are the places of line and cells (the model's, entry 3); what an RDREC sees early is entry 27; that a missed slot
that takes a span port DOWN from UP leaves its good run 0 is inferred (entry 15). -/
def Obligations.SlotRaisesTheNextHfn : Prop :=
  (∀ (s : State) (line : Bool) (ord : SlotOrder), s.held = false →
    (s.mga.restart = none →
      let n := match s.fps.hfn with
        | none => 0
        | some h => h + 1
      let ca := s.tif.a.consume
      let cb := s.tif.b.consume
      let roles := ({ s.tif with a := ca.1, b := cb.1 } : TrunkSide).settle
      let act := roles.1.active
      let frame := match act with
        | some .a => ca.2
        | some .b => cb.2
        | none => none
      let expires := s.fps.ref == .holdover && decide (s.fps.holdLimit ≤ s.fps.holdCount + 1)
      let lanes := markLanes s.ctb s.bku (guardStep s.lal)
      let voice := fun p : Player => p.slotWork s.ast s.bku.params (frame.map frameSpeech)
      let i : MixInput := ⟨n, s, lanes, frame, voice s.bku.bp0, voice s.bku.bp1⟩
      let judged := (List.finRange 8).foldl (Spans.missPort s.lal) s.spans
      let closing := (openSlots judged.window).contains (n - 4)
      let v := if closing then (List.finRange 8).foldl (Spans.closeGroup lanes (n - 4)) { judged with out := [] } else { judged with out := [] }
      let c : CloseInput := ⟨n - 4, s.ctb, lanes, v.remotes, v.window⟩
      let closed := ({ s.ucb with window := v.window } : Combiner).afterClose c
      let served := fun g : GroupId => (configOf s.lal g).form != .unused
      let limited := fun g : GroupId => if served g then
          (s.dmx.get g).update n g (configOf s.lal g) (.make (i.lane g)) (derating (s.sif.remotes.get g))
        else (s.dmx.get g, [])
      let played := s.bkuView.slotWork n s.ict.row.announceMask i.play0 i.play1 lanes
      let mixNotices := ((List.finRange 8).filter served).flatMap (fun g => laneClips g (.make (i.lane g))) ++
        (List.finRange 8).flatMap fun g => (limited g).2
      let spanNotices := judged.out ++ v.out ++ if closing then clipNotices (c.sums closed.gates) else []
      let raised :=
        (if ord.expiryFirst && expires then [.referenceState .freeRun] else []) ++
        (if ca.1.link = s.tif.a.link then [] else [.trunkState .a ca.1.link]) ++
        (if cb.1.link = s.tif.b.link then [] else [.trunkState .b cb.1.link]) ++ roles.2 ++
        (match act.isSome, s.fps.ref with
          | true, .locked => []
          | true, _ => [.referenceState .locked]
          | false, .locked => [.referenceState (if s.fps.holdLimit = 0 then .freeRun else .holdover)]
          | false, _ => []) ++
        (if !ord.expiryFirst && act.isNone && expires then [.referenceState .freeRun] else []) ++
        match ord.works with
          | .mixerSpanPlayers => mixNotices ++ spanNotices ++ played.out
          | .mixerPlayersSpan => mixNotices ++ played.out ++ spanNotices
          | .spanMixerPlayers => spanNotices ++ mixNotices ++ played.out
          | .spanPlayersMixer => spanNotices ++ played.out ++ mixNotices
          | .playersMixerSpan => played.out ++ mixNotices ++ spanNotices
          | .playersSpanMixer => played.out ++ spanNotices ++ mixNotices
      (∃ (t : State) (f g : UplinkFrame), exec (.slot line ord) s = .next t ∧ t.fps.hfn = some n ∧
        t.tif.outA = some f ∧ t.tif.outB = some g ∧ f.hfn = n ∧ g.hfn = n ∧ f.lanes = g.lanes ∧ f.lanes = t.ucb.uplink ∧
        f.summary = g.summary ∧ f.summary.active = act ∧ f.control = t.mga.respA ∧ g.control = t.mga.respB ∧
        (f.summary.active ≠ some .a → f.notice = none) ∧ (g.summary.active ≠ some .b → g.notice = none) ∧
        f.summary.notices = t.mga.queue.length ∧ f.summary.lost = t.mga.lost ∧ f.summary.level = max t.ict.latched t.ict.commanded ∧
        n ∈ openSlots t.ucb.window ∧ t.ict.sampleHfn = some n ∧ t.bku.lastWork = some n ∧ t.pins = s.pins ∧ t.pending = s.pending) ∧
      ∃ w : State,
        (let toLine := lineSample n line
        let fromA := takeFrameCell (earlyView ord s) .a ca.2
        let fromB := takeFrameCell (earlyView ord s) .b cb.2
        exec (.slot line ord) s = .next (completeFrames n (match ord.tail with
          | .lineAB => fromB (fromA (toLine w))
          | .lineBA => fromA (fromB (toLine w))
          | .aLineB => fromB (toLine (fromA w))
          | .bLineA => fromA (toLine (fromB w))
          | .abLine => toLine (fromB (fromA w))
          | .baLine => toLine (fromA (fromB w))))) ∧
        w.tif = { roles.1 with settled := act } ∧
        w.fps.hfn = some n ∧ w.fps.holdLimit = s.fps.holdLimit ∧ w.fps.trim = s.fps.trim ∧
        (act.isSome → w.fps.ref = .locked ∧ w.fps.holdCount = if s.fps.ref = .locked then s.fps.holdCount else 0) ∧
        (act = none → w.fps.heldRate = s.fps.heldRate ∧
          (s.fps.ref = .locked → w.fps.ref = (if s.fps.holdLimit = 0 then .freeRun else .holdover) ∧ w.fps.holdCount = 0) ∧
          (s.fps.ref = .holdover → w.fps.ref = (if expires then .freeRun else .holdover) ∧ w.fps.holdCount = s.fps.holdCount + 1) ∧
          (s.fps.ref = .freeRun → w.fps.ref = .freeRun ∧ w.fps.holdCount = s.fps.holdCount)) ∧
        w.lal = lanes ∧ (∀ g : GroupId, w.dmx.get g = (limited g).1) ∧ w.sif.remotes = v.remotes ∧
        (∀ p : SpanId, w.sif.ports.get p = { v.ports.get p with quiet := (v.ports.get p).quiet - 1 } ∧
          (servedBy s.lal p = none ∨ (v.ports.get p).quiet ≠ 0 → w.sif.out.get p = none) ∧
          ∀ (g : GroupId) (sd : Side), servedBy s.lal p = some (g, sd) → (v.ports.get p).quiet = 0 →
            ∃ f : DownlinkFrame, w.sif.out.get p = some f ∧ f.hfn = n ∧ f.timing = s.fps.ref ∧
              f.level = max s.ict.latched s.ict.commanded ∧
              (∀ k : Pos, f.directives.get k = if k.val < (configOf s.lal g).remotes ∧ served g = true then
                ⟨true, ((s.sif.remotes.get g).get k).feed, ((s.sif.remotes.get g).get k).inService⟩ else ⟨false, .a, false⟩) ∧
              ∀ l : LaneId, f.blocks.get l = (i.lane g l).block ∧
                let x := (lanes.get g).lanes.get l
                let code := (x.owner.map fun c => (s.ctb.get c).fields.rfCode).getD 0
                (x.state = .free → f.laneMap.get l = ⟨.idle, 0⟩) ∧ (x.state = .guard → f.laneMap.get l = ⟨.retuning, code⟩) ∧
                (x.state = .live → f.laneMap.get l = ⟨.live, code⟩)) ∧
        w.ucb = (if closing then { closed with window := v.window.filter (fun x => x.hfn != n - 4) ++ [⟨n, []⟩] }
          else { s.ucb with window := v.window ++ [⟨n, []⟩], uplink := .fill (.fill ⟨0, 0⟩) }) ∧
        w.bku = played.unit ∧ w.mga = Agent.raiseAll { s.mga with respA := none, respB := none } raised ∧
        w.ctb = s.ctb ∧ w.ast = s.ast ∧ w.ict = s.ict ∧ w.pins = s.pins ∧ w.pending = s.pending) ∧
    (s.mga.restart ≠ none → exec (.slot line ord) s = exec .restartTakesEffect s)) ∧
  (∀ (seen : State → State) (p : TrunkId) (cell : List Byte) (s : State),
    takeFrameCell seen p none s = s ∧
    (∀ frame : List Byte, frameCell frame = cell →
      let t := takeFrameCell seen p (some frame) s
      (readCell cell = .empty → t = s) ∧
      (readCell cell = .badCheck → t = s.respond p ⟨0, 0, .malformed, []⟩) ∧
      (∀ tag kind : Nat, readCell cell = .malformed tag kind → t = s.respond p ⟨tag, kind, .malformed, []⟩) ∧
      (∀ (tag : Nat) (r : Request), readCell cell = .request tag r → s.held = false →
        (∀ (sel : Selector) (part : Nat), r ≠ .rdrec sel part) ∨ seen s = s → exec (commandOf p tag r) s = .next t.refreshFrames) ∧
      ∀ (tag part : Nat) (sel : Selector), readCell cell = .request tag (.rdrec sel part) →
        (tag = 0 → t = s.respond p ⟨0, 1, .malformed, []⟩) ∧
        (tag ≠ 0 → (∀ st, (seen s).record sel = .refused st → t = s.respond p ⟨tag, 1, st, []⟩) ∧
          ∀ bs, (seen s).record sel = .record bs →
            let parts := max 1 ((bs.length + 40) / 41)
            (part < parts → t = s.respond p ⟨tag, 1, .ok, be 1 parts ++ (bs.drop (41 * part)).take 41⟩) ∧
            (parts ≤ part → t = s.respond p ⟨tag, 1, .range, []⟩)))) ∧
  (∀ (n : FrameNo) (u : State),
    let t := completeFrames n u
    let sent := match u.tif.settled, u.mga.queue with
      | some _, e :: _ => some (⟨e, u.mga.lost⟩ : SentNotice)
      | _, _ => none
    let frame := fun p : TrunkId => ({
      hfn := n
      summary := ⟨u.fps.ref, u.tif.settled, max u.ict.latched u.ict.commanded, t.mga.queue.length, t.mga.lost⟩
      control := u.mga.response p
      notice := if u.tif.settled = some p then sent else none
      lanes := u.ucb.uplink } : UplinkFrame)
    t = { u with
      tif := { u.tif with outA := some (frame .a), outB := some (frame .b) }
      mga := if sent.isSome then { u.mga with queue := u.mga.queue.tail, lost := false } else u.mga }) ∧
  ∀ (v : Spans) (lal : Table Group 8) (p : SpanId),
    let w := Spans.missPort lal v p
    let x := v.ports.get p
    let y : SpanPort := { x with missedSlots := min (x.missedSlots + 1) 4294967295, arrived := false }
    (servedBy lal p = none → w = v) ∧
    ∀ (g : GroupId) (sd : Side), servedBy lal p = some (g, sd) →
      (x.arrived = true → w = { v with ports := v.ports.put p { x with arrived := false } }) ∧
      (x.arrived = false → x.link = .down → w = { v with ports := v.ports.put p y }) ∧
      (x.arrived = false → x.link = .aligning → w =
        { v with ports := v.ports.put p { y with link := .down, goodRun := 0 }, out := v.out ++ [.spanState p .down] }) ∧
      (x.arrived = false → x.link = .up → x.badRun < 7 → w = { v with ports := v.ports.put p { y with badRun := x.badRun + 1 } }) ∧
      (x.arrived = false → x.link = .up → 7 ≤ x.badRun →
        w.ports = v.ports.put p { y with link := .down, goodRun := 0, badRun := 0 } ∧
        (∀ h : GroupId, h ≠ g → w.remotes.get h = v.remotes.get h) ∧
        (∀ k : Pos, let c := v.ctx g k sd
          w.remote g k = if c.state = .tracking then
            (v.remote g k).setCtx sd { c with state := .waiting, reason := some .silent, missRun := 0 } else v.remote g k) ∧
        w.window = v.window.map (fun o =>
          { o with filed := o.filed.filter fun f => ¬(f.group = g ∧ f.side = sd ∧ (v.ctx g f.pos sd).state = .tracking) }) ∧
        w.out = v.out ++ .spanState p .down :: ((List.finRange 6).filter fun k => (v.ctx g k sd).state = .tracking).map
          fun k => .remoteState g k sd .waiting (some .silent))

/-- A line sample (R182): not asserted, the run is 0 and the latch stands; asserted, the run rises, held at 3, and at 3 the
latched level rises to the line level where it lies below. While the effective level stays nothing else changes. Where it changes the
INCIDENT event follows (R185): INCIDENT is raised first, with cause LINE and the levels after the sample, then the lane allocator
sheds and unsheds and runs the arbiters under the row now current (R40), then the break-in unit takes a change of the announce mask
(R145), and nothing else changes. -/
def Obligations.LineSampleLatchesAtThree : Prop :=
  ∀ (s : State) (n : FrameNo) (line : Bool),
    let t := lineSample n line s
    t.ict.asserted = line ∧ t.ict.sampleHfn = some n ∧ t.ict.commanded = s.ict.commanded ∧ t.ict.lineLevel = s.ict.lineLevel ∧
    t.ict.profile = s.ict.profile ∧ (t.ict.run = if line then min 3 (s.ict.run + 1) else 0) ∧
    (t.ict.latched = if line = true ∧ 2 ≤ s.ict.run then max s.ict.latched s.ict.lineLevel else s.ict.latched) ∧
    (max t.ict.latched t.ict.commanded = max s.ict.latched s.ict.commanded → t = { s with ict := t.ict }) ∧
    (max t.ict.latched t.ict.commanded ≠ max s.ict.latched s.ict.commanded →
      let level := max t.ict.latched t.ict.commanded
      let row := s.ict.profile.get level
      let a := s.alloc.incident row
      let b := s.bkuView.maskChange (s.ict.profile.get (max s.ict.latched s.ict.commanded)).announceMask row.announceMask
      t = { s with
        ict := t.ict
        ctb := a.ctb
        lal := a.lal
        ucb := { s.ucb with gates := a.gates }
        bku := b.unit
        mga := s.mga.raiseAll (.incident level t.ict.latched s.ict.commanded s.ict.lineLevel .line :: (a.out ++ b.out)) }) ∧
    t.fps = s.fps ∧ t.tif = s.tif ∧ t.dmx = s.dmx ∧ t.sif = s.sif ∧ t.ast = s.ast

/-! ### Arithmetic (00_scope.md, chapter 7) -/

/-- R3: the nearest rounding of v/4096, and likewise by 65536 and 32768, is floor((v + half)/divisor) for v from 0 on, and for
v below 0 the negative of the nearest rounding of -v; so halves are rounded away from zero, and 10240/4096 rounds to 3,
-10240/4096 to -3. -/
def Obligations.NearestRoundingMirrorsItself : Prop :=
  ∀ (v : Int) (d : Nat), d = 4096 ∨ d = 65536 ∨ d = 32768 →
    (0 ≤ v → nearest v d = (v + (d / 2 : Nat)) / (d : Int)) ∧ (v < 0 → nearest v d = -nearest (-v) d) ∧
    2 * (nearest v d * d - v).natAbs ≤ d ∧
    (∀ q : Int, 0 ≤ q → 2 * v = (2 * q + 1) * d → nearest v d = q + 1 ∧ nearest (-v) d = -(q + 1)) ∧
    nearest 10240 4096 = 3 ∧ nearest (-10240) 4096 = -3

/-! ### Laws that every step keeps -/

/-- The store's memory keeps its canonical form (entry 8). -/
def Obligations.StepKeepsMemoryCanonical : Prop := keptByStep State.memoryOk

/-- At most one trunk port is ACTIVE, only an UP port is, the reference state is LOCKED exactly while one is (R120, R127), and where
the consumption of the slot in course settled a port ACTIVE, one still is, if not the same one (R121, R123). -/
def Obligations.StepKeepsRolesAndReference : Prop := keptByStep State.rolesOk

/-- The notice queue keeps at most 32 entries, at most one per key, each with a count of 1..255 (R197). And what raising a notice
does (R197): where its key is present the entry keeps its place, its count rises by one, held at 255, and its detail is the new one's;
where it is absent and fewer than 32 entries stand, an entry of count 1 joins the tail; where it is absent and 32 stand, the notice is
dropped and the lost flag set; several are raised one after the other. The key is the kind's code and the subject of R200, numbered as
Table 11-8 gives (R211). -/
def Obligations.StepKeepsNoticeQueue : Prop :=
  let key := fun n : Notice => (n.kindCode, n.subject)
  let side := fun sd : Side => match sd with
    | .a => 0
    | .b => 1
  let trunk := fun p : TrunkId => match p with
    | .a => 0
    | .b => 1
  keptByStep State.noticesOk ∧
  (∀ (m : Agent) (n : Notice),
    (∀ (front back : List Entry) (e : Entry), m.queue = front ++ e :: back → key e.latest = key n →
      (∀ d ∈ front ++ back, key d.latest ≠ key n) → m.raise n = { m with queue := front ++ ⟨n, min 255 (e.count + 1)⟩ :: back }) ∧
    ((∀ d ∈ m.queue, key d.latest ≠ key n) → m.queue.length < 32 → m.raise n = { m with queue := m.queue ++ [⟨n, 1⟩] }) ∧
    ((∀ d ∈ m.queue, key d.latest ≠ key n) → 32 ≤ m.queue.length → m.raise n = { m with lost := true }) ∧
    m.raiseAll [] = m ∧ ∀ ns : List Notice, m.raiseAll (n :: ns) = (m.raise n).raiseAll ns) ∧
  (∀ (c : CauseRecord) (o : SettingsOutcome) (a b : Nat), key (.start c o a b) = (1, 0)) ∧
  (∀ (p : TrunkId) (l : TrunkLink) (c : SwitchCause), key (.trunkState p l) = (2, trunk p) ∧ key (.trunkSwitch p c) = (3, 0)) ∧
  (∀ r : RefState, key (.referenceState r) = (4, 0)) ∧
  (∀ (p : SpanId) (l : SpanLink) (k : BitVec 3) (e : FrameNo) (r : BitVec 2),
    key (.spanState p l) = (5, p.val) ∧ key (.sectionFault p k e r) = (10, p.val)) ∧
  (∀ (g : GroupId) (k : Pos) (sd : Side) (st : ContextState) (w : Option WaitReason) (ec c : BitVec 8) (ee e : FrameNo) (h : BitVec 2)
      (r : Radiator),
    key (.remoteState g k sd st w) = (6, g.val * 16 + (k.val + 1) * 2 + side sd) ∧
    key (.remoteResync g k sd ec ee c e) = (7, g.val * 16 + (k.val + 1) * 2 + side sd) ∧
    key (.remoteSide g k sd) = (8, g.val * 8 + (k.val + 1)) ∧ key (.remoteReport g k h r) = (9, g.val * 8 + (k.val + 1))) ∧
  (∀ (c : CarrierId) (g : GroupId) (o : PlacementOutcome) (x : Option LaneId) (l : LaneId) (t : TrunkLane) (a b d : Nat),
    key (.placement c g o x) = (11, c.val * 8 + g.val) ∧ key (.overBudget g a b d) = (12, g.val) ∧
    key (.protectedOver g a b) = (13, g.val) ∧ key (.clipLane g l c a) = (14, g.val * 32 + l.val) ∧
    key (.clipTrunk t c a) = (14, 512 + t.val)) ∧
  (∀ (t : Nat) (p : PlayerId) (m : MessageRef) (n : Nat) (o : AnnOutcome),
    key (.announceStart t p m n) = (15, t) ∧ key (.announceRequeued t p n) = (16, t) ∧ key (.announceEnd t o n) = (17, t)) ∧
  (∀ (b : BlockId) (q : PageId) (r : StoreResult),
    key (.storeProgramDone b q r) = (18, b.val) ∧ key (.storeEraseDone b r) = (18, b.val) ∧ key (.settingsDone r) = (19, 0)) ∧
  ∀ (e l c n : Level) (k : IncidentCause), key (.incident e l c n k) = (20, 0)

/-- ACTIVE carriers keep pairwise distinct uplink destinations (R12). -/
def Obligations.StepKeepsDestinationsDistinct : Prop := keptByStep State.destinationsOk

/-- Every limiter factor stays between its group's floor and 4096 (R63), and while the hub is held in reset every limiter stands at
its reset values (R68, R204). -/
def Obligations.StepKeepsLimiterBounds : Prop := keptByStep State.limiterOk

/-- Group forms stay consistent, saved ones included, no carrier is ACTIVE in an UNUSED group (R23), and the line level stays
1..3 (R181). -/
def Obligations.StepKeepsConfigurationConsistent : Prop := keptByStep State.configOk

/-- Placement states, lane tables and waiting lists agree at all times (R17). -/
def Obligations.StepKeepsPlacementsAgreeing : Prop := keptByStep State.placementsOk

/-- The open combine slots stay at most four consecutive HFNs up to the latest, with one section under a key at most (R96,
R97). -/
def Obligations.StepKeepsCombineWindow : Prop := keptByStep State.windowOk

/-- Side contexts follow the configuration of their group (R74). -/
def Obligations.StepKeepsContexts : Prop := keptByStep State.contextsOk

/-- Held requests stay at most 16 with distinct tags in order of priority, the players agree with their requests and the
announce mask, their zones stay disjoint (R135, R137, R139, R143, R145), and while the hub is held in reset nothing is queued and both
players are IDLE (R160, R204). -/
def Obligations.StepKeepsBreakIn : Prop := keptByStep State.breakInOk

/-- Every page of every READY message stays PROGRAMMED, and pages, pointers, unit and holder agree (R175, R162, R167). -/
def Obligations.StepKeepsStore : Prop := keptByStep State.storeOk

/-- The hub right after reset meets every one of these laws. -/
def Obligations.ResetMeetsEveryLaw : Prop :=
  State.reset.memoryOk ∧ State.reset.rolesOk ∧ State.reset.noticesOk ∧ State.reset.destinationsOk ∧ State.reset.limiterOk ∧
  State.reset.configOk ∧ State.reset.placementsOk ∧ State.reset.windowOk ∧ State.reset.contextsOk ∧ State.reset.breakInOk ∧
  State.reset.storeOk
end

