-- ==== Sys2Proof/Laws/BreakIn.lean ====
section
/-! SUPPORT. The player arbiter: it holds exactly the requests it found held, and touches neither the parameters, nor the mark of the last work, nor a player that fades out. -/
namespace Sys2Proof.Machine

/-- A player has a request exactly while it is not IDLE. -/
def Player.filled (p : Player) : Prop := p.request = none ↔ p.state = .idle

/-- The requests on the players. -/
def BreakIn.onPlayers (b : BreakIn) : List AnnRequest := b.bp0.request.toList ++ b.bp1.request.toList

theorem Player.yieldTo_request (p : Player) (r : AnnRequest) : (p.yieldTo r).request = p.request := by
  unfold Player.yieldTo
  split
  · split
    · rfl
    · rfl
  · rfl

theorem Player.yieldTo_filled {p : Player} (h : p.filled) (r : AnnRequest) : (p.yieldTo r).filled := by
  unfold Player.yieldTo
  split
  · rename_i q hq
    split
    · unfold Player.filled Player.fadeOutWith
      simp [hq]
    · exact h
  · exact h

/-- The player that is IDLE, where one is found. -/
theorem BreakIn.idlePlayer_idle {b : BreakIn} {p : PlayerId} (h : b.idlePlayer = some p) : (b.player p).state = .idle := by
  unfold BreakIn.idlePlayer at h
  split at h
  · cases h; assumption
  · split at h
    · cases h; assumption
    · cases h

/-- A request started on a player that had none is one request more on the players. -/
theorem Bku.start_onPlayers (b : Bku) (p : PlayerId) (r : AnnRequest) (h : (b.unit.player p).request = none) :
    (b.start p r).unit.onPlayers.Perm (r :: b.unit.onPlayers) := by
  cases p
  · simp only [BreakIn.player] at h
    simp [Bku.start, Bku.say, BreakIn.setPlayer, BreakIn.onPlayers, h]
  · simp only [BreakIn.player] at h
    simp only [Bku.start, Bku.say, BreakIn.setPlayer, BreakIn.onPlayers, h, Option.toList_some, Option.toList_none, List.append_nil]
    exact List.perm_append_singleton r _

theorem Bku.start_filled (b : Bku) (p : PlayerId) (r : AnnRequest) (h : ∀ q, (b.unit.player q).filled) (q : PlayerId) :
    ((b.start p r).unit.player q).filled := by
  have h0 := h .bp0
  have h1 := h .bp1
  simp only [BreakIn.player] at h0 h1
  cases p <;> cases q <;> simp [Bku.start, Bku.say, BreakIn.setPlayer, BreakIn.player, Player.filled] <;> first | exact h0 | exact h1

/-- The walk over a queue: what stays queued and what is on the players is what was there before, and parameters, queue and
mark of the last work stay. -/
theorem Bku.walk_keeps (mask : Nat) (rs : List AnnRequest) : ∀ (blocked : GroupSet) (b : Bku), (∀ q, (b.unit.player q).filled) →
    let w := Bku.walk mask rs blocked b
    (w.1 ++ w.2.unit.onPlayers).Perm (rs ++ b.unit.onPlayers) ∧ (∀ q, (w.2.unit.player q).filled) ∧
    w.2.unit.params = b.unit.params ∧ w.2.unit.queue = b.unit.queue ∧ w.2.unit.lastWork = b.unit.lastWork := by
  induction rs with
  | nil => intro blocked b h; exact ⟨.refl _, h, rfl, rfl, rfl⟩
  | cons r rs ih =>
    intro blocked b h
    simp only [Bku.walk]
    split
    · obtain ⟨i1, i2, i3, i4, i5⟩ := ih blocked b h
      exact ⟨List.Perm.cons r i1, i2, i3, i4, i5⟩
    · split
      · rename_i p hp
        have hidle : b.unit.idlePlayer = some p := by
          split at hp
          · exact hp
          · cases hp
        have hnone := (h p).2 (BreakIn.idlePlayer_idle hidle)
        obtain ⟨i1, i2, i3, i4, i5⟩ := ih (blocked ||| r.zones) (b.start p r) (Bku.start_filled b p r h)
        refine ⟨?_, i2, ?_, ?_, ?_⟩
        · refine i1.trans ?_
          refine ((Bku.start_onPlayers b p r hnone).append_left rs).trans ?_
          exact List.perm_middle
        · rw [i3]; cases p <;> rfl
        · rw [i4]; cases p <;> rfl
        · rw [i5]; cases p <;> rfl
      · obtain ⟨i1, i2, i3, i4, i5⟩ := ih (blocked ||| r.zones)
          { b with unit := { b.unit with bp0 := b.unit.bp0.yieldTo r, bp1 := b.unit.bp1.yieldTo r } }
          (fun q => by
            cases q
            · exact Player.yieldTo_filled (h .bp0) r
            · exact Player.yieldTo_filled (h .bp1) r)
        refine ⟨?_, i2, i3, i4, i5⟩
        have e : ({ b.unit with bp0 := b.unit.bp0.yieldTo r, bp1 := b.unit.bp1.yieldTo r } : BreakIn).onPlayers =
            b.unit.onPlayers := by
          simp [BreakIn.onPlayers, Player.yieldTo_request]
        rw [e] at i1
        exact List.Perm.cons r i1

/-- One run of the player arbiter (R143). -/
theorem Bku.arbiter_keeps (mask : Nat) (b : Bku) (h : ∀ q, (b.unit.player q).filled) :
    (Bku.arbiter mask b).unit.held.Perm b.unit.held ∧ (∀ q, ((Bku.arbiter mask b).unit.player q).filled) ∧
    (Bku.arbiter mask b).unit.params = b.unit.params ∧ (Bku.arbiter mask b).unit.lastWork = b.unit.lastWork := by
  obtain ⟨i1, i2, i3, _, i5⟩ := Bku.walk_keeps mask b.unit.queue (b.unit.bp0.zones ||| b.unit.bp1.zones) b h
  refine ⟨?_, ?_, i3, i5⟩
  · simpa [BreakIn.held, BreakIn.onPlayers, Bku.arbiter] using i1
  · intro q; cases q
    · exact i2 .bp0
    · exact i2 .bp1

/-- All that the walk over a queue raises is ANNOUNCE_STARTs of its requests. -/
theorem Bku.walk_out (mask : Nat) (rs : List AnnRequest) : ∀ (blocked : GroupSet) (b : Bku),
    ∃ more : List Notice, (Bku.walk mask rs blocked b).2.out = b.out ++ more ∧
      ∀ n ∈ more, ∃ q id, n = .announceStart q.tag id q.message q.playsDone ∧ q ∈ rs := by
  induction rs with
  | nil => intro blocked b; exact ⟨[], by simp [Bku.walk], by simp⟩
  | cons r rs ih =>
    intro blocked b
    have behind : ∀ {more : List Notice}, (∀ n ∈ more, ∃ q id, n = Notice.announceStart q.tag id q.message q.playsDone ∧ q ∈ rs) →
        ∀ n ∈ more, ∃ q id, n = Notice.announceStart q.tag id q.message q.playsDone ∧ q ∈ r :: rs := fun h n hn => by
      obtain ⟨q, id, e, hq⟩ := h n hn
      exact ⟨q, id, e, List.mem_cons_of_mem r hq⟩
    simp only [Bku.walk]
    split
    · obtain ⟨more, h1, h2⟩ := ih blocked b
      exact ⟨more, h1, behind h2⟩
    · split
      · rename_i p _
        obtain ⟨more, h1, h2⟩ := ih (blocked ||| r.zones) (b.start p r)
        refine ⟨.announceStart r.tag p r.message r.playsDone :: more, by rw [h1]; simp [Bku.start, Bku.say], ?_⟩
        intro n hn
        rcases List.mem_cons.1 hn with h | h
        · exact ⟨r, p, h, List.mem_cons_self ..⟩
        · exact behind h2 n h
      · obtain ⟨more, h1, h2⟩ := ih (blocked ||| r.zones)
          { b with unit := { b.unit with bp0 := b.unit.bp0.yieldTo r, bp1 := b.unit.bp1.yieldTo r } }
        exact ⟨more, h1, behind h2⟩

/-- All that one run of the player arbiter raises is ANNOUNCE_STARTs of queued requests. -/
theorem Bku.arbiter_out (mask : Nat) (b : Bku) :
    ∃ more : List Notice, (Bku.arbiter mask b).out = b.out ++ more ∧
      ∀ n ∈ more, ∃ q id, n = .announceStart q.tag id q.message q.playsDone ∧ q ∈ b.unit.queue :=
  Bku.walk_out mask b.unit.queue (b.unit.bp0.zones ||| b.unit.bp1.zones) b

theorem Player.yieldTo_fadeOut {p : Player} (h : p.state = .fadeOut) (r : AnnRequest) : p.yieldTo r = p := by
  unfold Player.yieldTo Player.running
  split <;> simp [h]

/-- The walk over a queue leaves a player in FADE_OUT as it is (R144). -/
theorem Bku.walk_fadeOut (mask : Nat) (id : PlayerId) (rs : List AnnRequest) : ∀ (blocked : GroupSet) (b : Bku),
    (b.unit.player id).state = .fadeOut → (Bku.walk mask rs blocked b).2.unit.player id = b.unit.player id := by
  induction rs with
  | nil => intro blocked b _; rfl
  | cons r rs ih =>
    intro blocked b h
    simp only [Bku.walk]
    split
    · exact ih blocked b h
    · split
      · rename_i p hp
        have hidle : b.unit.idlePlayer = some p := by
          split at hp
          · exact hp
          · cases hp
        have hne : p ≠ id := fun e => by rw [← e, BreakIn.idlePlayer_idle hidle] at h; cases h
        have hs : (b.start p r).unit.player id = b.unit.player id := by
          cases p <;> cases id <;> first | exact absurd rfl hne | rfl
        rw [ih _ _ (by rw [hs]; exact h), hs]
      · have hs : ({ b.unit with bp0 := b.unit.bp0.yieldTo r, bp1 := b.unit.bp1.yieldTo r } : BreakIn).player id = b.unit.player id := by
          cases id
          · exact Player.yieldTo_fadeOut h r
          · exact Player.yieldTo_fadeOut h r
        exact (ih (blocked ||| r.zones) { b with unit := { b.unit with bp0 := b.unit.bp0.yieldTo r, bp1 := b.unit.bp1.yieldTo r } }
          (hs ▸ h)).trans hs

/-- One run of the player arbiter leaves a player in FADE_OUT as it is (R144). -/
theorem Bku.arbiter_fadeOut (mask : Nat) (b : Bku) (id : PlayerId) (h : (b.unit.player id).state = .fadeOut) :
    (Bku.arbiter mask b).unit.player id = b.unit.player id := by
  have := Bku.walk_fadeOut mask id b.unit.queue (b.unit.bp0.zones ||| b.unit.bp1.zones) b h
  cases id <;> exact this

end Sys2Proof.Machine
end

