-- ==== Sys2Proof/Laws/Lanes.lean ====
section
/-! SUPPORT. What the lane allocator's operations leave alone: carriers' records but for placement states, group configurations, and every group but the one they work on. -/
namespace Sys2Proof.Machine

/-- What no operation of the allocator on group `g` changes. -/
structure Alloc.KeepsOutside (g : GroupId) (a b : Alloc) : Prop where
  /-- Carrier states and fields. -/
  record : ∀ c : CarrierId, (b.ctb.get c).state = (a.ctb.get c).state ∧ (b.ctb.get c).fields = (a.ctb.get c).fields
  /-- Placement sets and trims. -/
  trim : ∀ (c : CarrierId) (h : GroupId), ((b.ctb.get c).placements.get h).map (·.trim) = ((a.ctb.get c).placements.get h).map (·.trim)
  /-- Group configurations. -/
  config : ∀ h : GroupId, (b.lal.get h).config = (a.lal.get h).config
  /-- Placement records in other groups. -/
  placement : ∀ (c : CarrierId) (h : GroupId), h ≠ g → (b.ctb.get c).placements.get h = (a.ctb.get c).placements.get h
  /-- Lane tables, waiting lists and gates of other groups. -/
  other : ∀ h : GroupId, h ≠ g → b.lal.get h = a.lal.get h ∧ b.gates.get h = a.gates.get h

namespace Alloc

theorem KeepsOutside.refl (g : GroupId) (a : Alloc) : KeepsOutside g a a :=
  ⟨fun _ => ⟨rfl, rfl⟩, fun _ _ => rfl, fun _ => rfl, fun _ _ _ => rfl, fun _ _ => ⟨rfl, rfl⟩⟩

theorem KeepsOutside.trans {g : GroupId} {a b c : Alloc} (h : KeepsOutside g a b) (k : KeepsOutside g b c) : KeepsOutside g a c :=
  ⟨fun x => ⟨(k.record x).1.trans (h.record x).1, (k.record x).2.trans (h.record x).2⟩,
   fun x y => (k.trim x y).trans (h.trim x y), fun x => (k.config x).trans (h.config x),
   fun x y n => (k.placement x y n).trans (h.placement x y n),
   fun x n => ⟨(k.other x n).1.trans (h.other x n).1, (k.other x n).2.trans (h.other x n).2⟩⟩

theorem keeps_say (g : GroupId) (a : Alloc) (n : Notice) : KeepsOutside g a (a.say n) :=
  ⟨fun _ => ⟨rfl, rfl⟩, fun _ _ => rfl, fun _ => rfl, fun _ _ _ => rfl, fun _ _ => ⟨rfl, rfl⟩⟩

theorem keeps_setPlacement (a : Alloc) (c : CarrierId) (g : GroupId) (st : Option PlacementState) :
    KeepsOutside g a (a.setPlacement c g st) := by
  refine ⟨fun d => ?_, fun d h => ?_, fun _ => rfl, fun d h n => ?_, fun _ _ => ⟨rfl, rfl⟩⟩
  · by_cases e : c = d
    · subst e; simp [setPlacement]
    · simp [setPlacement, e]
  · by_cases e : c = d
    · subst e
      by_cases e' : g = h
      · subst e'; simp [setPlacement, Option.map_map, Function.comp_def]
      · simp [setPlacement, e']
    · simp [setPlacement, e]
  · by_cases e : c = d
    · subst e; simp [setPlacement, Ne.symm n]
    · simp [setPlacement, e]

theorem keeps_setWaiting (a : Alloc) (g : GroupId) (w : List CarrierId) : KeepsOutside g a (a.setWaiting g w) := by
  refine ⟨fun _ => ⟨rfl, rfl⟩, fun _ _ => rfl, fun h => ?_, fun _ _ _ => rfl, fun h n => ⟨?_, rfl⟩⟩
  · by_cases e : g = h
    · subst e; simp [setWaiting]
    · simp [setWaiting, e]
  · simp [setWaiting, Ne.symm n]

theorem keeps_putLane (a : Alloc) (g : GroupId) (l : LaneId) (x : Lane) : KeepsOutside g a (a.putLane g l x) := by
  refine ⟨fun _ => ⟨rfl, rfl⟩, fun _ _ => rfl, fun h => ?_, fun _ _ _ => rfl, fun h n => ⟨?_, ?_⟩⟩
  · by_cases e : g = h
    · subst e; simp [putLane]
    · simp [putLane, e]
  · simp [putLane, Ne.symm n]
  · simp [putLane, Ne.symm n]

theorem keeps_give (a : Alloc) (g : GroupId) (l : LaneId) (c : CarrierId) : KeepsOutside g a (a.give g l c) :=
  (((keeps_putLane a g l _).trans (keeps_setWaiting _ g _)).trans (keeps_setPlacement _ c g _)).trans (keeps_say g _ _)

theorem keeps_handOver (a : Alloc) (g : GroupId) (l : LaneId) (v c : CarrierId) : KeepsOutside g a (a.handOver g l v c) :=
  (((keeps_setPlacement a v g _).trans (keeps_setWaiting _ g _)).trans (keeps_give _ g l c)).trans (keeps_say g _ _)

theorem keeps_grantStep (g : GroupId) (w : List CarrierId) : ∀ a : Alloc, KeepsOutside g a (grantStep g w a) := by
  induction w with
  | nil => exact KeepsOutside.refl g
  | cons c w ih =>
    intro a
    unfold grantStep
    split
    · exact .refl g a
    · exact (keeps_give a g _ c).trans (ih _)

theorem keeps_preemptStep (g : GroupId) (row : ProfileRow) (w : List CarrierId) :
    ∀ a : Alloc, KeepsOutside g a (preemptStep g row w a) := by
  induction w with
  | nil => exact KeepsOutside.refl g
  | cons c w ih =>
    intro a
    unfold preemptStep
    split
    · split
      · exact .refl g a
      · exact (keeps_handOver a g _ _ c).trans (ih _)
    · exact ih a

/-- A run of a group's arbiter (R35). -/
theorem keeps_arbiter (g : GroupId) (row : ProfileRow) (a : Alloc) : KeepsOutside g a (arbiter g row a) :=
  (keeps_grantStep g _ a).trans (keeps_preemptStep g row _ _)

theorem keeps_releaseOf (a : Alloc) (g : GroupId) (c : CarrierId) : KeepsOutside g a (a.releaseOf g c) := by
  unfold releaseOf
  split
  · exact keeps_putLane a g _ _
  · exact .refl g a

/-- One placement entered at activation (R13). -/
theorem keeps_enter (row : ProfileRow) (c : CarrierId) (a : Alloc) (g : GroupId) : KeepsOutside g a (enter row c a g) := by
  unfold enter
  split
  · exact keeps_setPlacement a c g _
  · exact ((keeps_setPlacement a c g _).trans (keeps_setWaiting _ g _)).trans (keeps_arbiter g row _)

/-- One placement released at CAROFF (R14). -/
theorem keeps_exitGroup (row : ProfileRow) (c : CarrierId) (a : Alloc) (g : GroupId) : KeepsOutside g a (exitGroup row c a g) := by
  unfold exitGroup
  split
  · exact ((keeps_releaseOf a g c).trans (keeps_setPlacement _ c g _)).trans (keeps_arbiter g row _)
  · exact ((keeps_setWaiting a g _).trans (keeps_setPlacement _ c g _)).trans (keeps_arbiter g row _)
  · exact keeps_setPlacement a c g _

theorem keeps_shedOne (g : GroupId) (row : ProfileRow) (a : Alloc) (c : CarrierId) : KeepsOutside g a (shedOne g row a c) := by
  unfold shedOne
  split
  · split
    · exact ((keeps_releaseOf a g c).trans (keeps_setPlacement _ c g _)).trans (keeps_say g _ _)
    · exact ((keeps_setWaiting a g _).trans (keeps_setPlacement _ c g _)).trans (keeps_say g _ _)
    · exact .refl g a
  · exact .refl g a

theorem keeps_unshedOne (g : GroupId) (row : ProfileRow) (a : Alloc) (c : CarrierId) : KeepsOutside g a (unshedOne g row a c) := by
  unfold unshedOne
  split
  · exact (keeps_setPlacement a c g _).trans (keeps_setWaiting _ g _)
  · exact .refl g a

/-- What a fold of operations on one group keeps. -/
theorem keeps_foldl {β : Type} (g : GroupId) (f : Alloc → β → Alloc) (h : ∀ a x, KeepsOutside g a (f a x)) (xs : List β) :
    ∀ a : Alloc, KeepsOutside g a (xs.foldl f a) := by
  induction xs with
  | nil => exact KeepsOutside.refl g
  | cons x xs ih => intro a; exact (h a x).trans (ih _)

/-- The allocator's part of INCIDENT for one group (R40). -/
theorem keeps_incidentGroup (row : ProfileRow) (a : Alloc) (g : GroupId) : KeepsOutside g a (incidentGroup row a g) := by
  unfold incidentGroup
  split
  · exact .refl g a
  · exact ((keeps_foldl g _ (keeps_shedOne g row) _ a).trans (keeps_foldl g _ (keeps_unshedOne g row) _ _)).trans
      (keeps_arbiter g row _)

/-- The allocator's part of INCIDENT (R40): carrier states and fields, trims and configurations stay. -/
theorem incident_keeps (row : ProfileRow) (a : Alloc) :
    (∀ c : CarrierId, ((incident row a).ctb.get c).state = (a.ctb.get c).state ∧
      ((incident row a).ctb.get c).fields = (a.ctb.get c).fields) ∧
    ∀ h : GroupId, ((incident row a).lal.get h).config = (a.lal.get h).config := by
  have key : ∀ (gs : List GroupId) (a : Alloc),
      (∀ c : CarrierId, ((gs.foldl (incidentGroup row) a).ctb.get c).state = (a.ctb.get c).state ∧
        ((gs.foldl (incidentGroup row) a).ctb.get c).fields = (a.ctb.get c).fields) ∧
      ∀ h : GroupId, ((gs.foldl (incidentGroup row) a).lal.get h).config = (a.lal.get h).config := by
    intro gs
    induction gs with
    | nil => intro a; exact ⟨fun _ => ⟨rfl, rfl⟩, fun _ => rfl⟩
    | cons g gs ih =>
      intro a
      have h1 := ih (incidentGroup row a g)
      have h2 := keeps_incidentGroup row a g
      exact ⟨fun c => ⟨(h1.1 c).1.trans (h2.record c).1, (h1.1 c).2.trans (h2.record c).2⟩,
        fun h => (h1.2 h).trans (h2.config h)⟩
  exact key _ a

end Alloc

end Sys2Proof.Machine
end

