-- ==== Sys2Proof/Laws/State.lean ====
section
/-! SUPPORT. What every update of the state does to every field of it: one lemma per field per update, true by unfolding. -/
namespace Sys2Proof.Machine

variable (s : State)

/-! ### `State.raiseAll` -/

@[simp] theorem State.raiseAll_fps (ns : List Notice) : (s.raiseAll ns).fps = s.fps := rfl
@[simp] theorem State.raiseAll_tif (ns : List Notice) : (s.raiseAll ns).tif = s.tif := rfl
@[simp] theorem State.raiseAll_ctb (ns : List Notice) : (s.raiseAll ns).ctb = s.ctb := rfl
@[simp] theorem State.raiseAll_lal (ns : List Notice) : (s.raiseAll ns).lal = s.lal := rfl
@[simp] theorem State.raiseAll_dmx (ns : List Notice) : (s.raiseAll ns).dmx = s.dmx := rfl
@[simp] theorem State.raiseAll_sif (ns : List Notice) : (s.raiseAll ns).sif = s.sif := rfl
@[simp] theorem State.raiseAll_ucb (ns : List Notice) : (s.raiseAll ns).ucb = s.ucb := rfl
@[simp] theorem State.raiseAll_bku (ns : List Notice) : (s.raiseAll ns).bku = s.bku := rfl
@[simp] theorem State.raiseAll_ast (ns : List Notice) : (s.raiseAll ns).ast = s.ast := rfl
@[simp] theorem State.raiseAll_ict (ns : List Notice) : (s.raiseAll ns).ict = s.ict := rfl
@[simp] theorem State.raiseAll_mga (ns : List Notice) : (s.raiseAll ns).mga = s.mga.raiseAll ns := rfl
@[simp] theorem State.raiseAll_pins (ns : List Notice) : (s.raiseAll ns).pins = s.pins := rfl
@[simp] theorem State.raiseAll_pending (ns : List Notice) : (s.raiseAll ns).pending = s.pending := rfl

/-! ### `State.raise` -/

@[simp] theorem State.raise_fps (n : Notice) : (s.raise n).fps = s.fps := rfl
@[simp] theorem State.raise_tif (n : Notice) : (s.raise n).tif = s.tif := rfl
@[simp] theorem State.raise_ctb (n : Notice) : (s.raise n).ctb = s.ctb := rfl
@[simp] theorem State.raise_lal (n : Notice) : (s.raise n).lal = s.lal := rfl
@[simp] theorem State.raise_dmx (n : Notice) : (s.raise n).dmx = s.dmx := rfl
@[simp] theorem State.raise_sif (n : Notice) : (s.raise n).sif = s.sif := rfl
@[simp] theorem State.raise_ucb (n : Notice) : (s.raise n).ucb = s.ucb := rfl
@[simp] theorem State.raise_bku (n : Notice) : (s.raise n).bku = s.bku := rfl
@[simp] theorem State.raise_ast (n : Notice) : (s.raise n).ast = s.ast := rfl
@[simp] theorem State.raise_ict (n : Notice) : (s.raise n).ict = s.ict := rfl
@[simp] theorem State.raise_mga (n : Notice) : (s.raise n).mga = s.mga.raiseAll [n] := rfl
@[simp] theorem State.raise_pins (n : Notice) : (s.raise n).pins = s.pins := rfl
@[simp] theorem State.raise_pending (n : Notice) : (s.raise n).pending = s.pending := rfl

/-! ### `State.respond` -/

@[simp] theorem State.respond_fps (p : TrunkId) (r : Response) : (s.respond p r).fps = s.fps := rfl
@[simp] theorem State.respond_tif (p : TrunkId) (r : Response) : (s.respond p r).tif = s.tif := rfl
@[simp] theorem State.respond_ctb (p : TrunkId) (r : Response) : (s.respond p r).ctb = s.ctb := rfl
@[simp] theorem State.respond_lal (p : TrunkId) (r : Response) : (s.respond p r).lal = s.lal := rfl
@[simp] theorem State.respond_dmx (p : TrunkId) (r : Response) : (s.respond p r).dmx = s.dmx := rfl
@[simp] theorem State.respond_sif (p : TrunkId) (r : Response) : (s.respond p r).sif = s.sif := rfl
@[simp] theorem State.respond_ucb (p : TrunkId) (r : Response) : (s.respond p r).ucb = s.ucb := rfl
@[simp] theorem State.respond_bku (p : TrunkId) (r : Response) : (s.respond p r).bku = s.bku := rfl
@[simp] theorem State.respond_ast (p : TrunkId) (r : Response) : (s.respond p r).ast = s.ast := rfl
@[simp] theorem State.respond_ict (p : TrunkId) (r : Response) : (s.respond p r).ict = s.ict := rfl
@[simp] theorem State.respond_mga (p : TrunkId) (r : Response) : (s.respond p r).mga = s.mga.respond p r := rfl
@[simp] theorem State.respond_pins (p : TrunkId) (r : Response) : (s.respond p r).pins = s.pins := rfl
@[simp] theorem State.respond_pending (p : TrunkId) (r : Response) : (s.respond p r).pending = s.pending := rfl

/-! ### `State.refreshFrames` -/

@[simp] theorem State.refreshFrames_fps : (s.refreshFrames).fps = s.fps := rfl
@[simp] theorem State.refreshFrames_trunkA : (s.refreshFrames).tif.a = s.tif.a := rfl
@[simp] theorem State.refreshFrames_trunkB : (s.refreshFrames).tif.b = s.tif.b := rfl
@[simp] theorem State.refreshFrames_settled : (s.refreshFrames).tif.settled = s.tif.settled := rfl
@[simp] theorem State.refreshFrames_ctb : (s.refreshFrames).ctb = s.ctb := rfl
@[simp] theorem State.refreshFrames_lal : (s.refreshFrames).lal = s.lal := rfl
@[simp] theorem State.refreshFrames_dmx : (s.refreshFrames).dmx = s.dmx := rfl
@[simp] theorem State.refreshFrames_sif : (s.refreshFrames).sif = s.sif := rfl
@[simp] theorem State.refreshFrames_ucb : (s.refreshFrames).ucb = s.ucb := rfl
@[simp] theorem State.refreshFrames_bku : (s.refreshFrames).bku = s.bku := rfl
@[simp] theorem State.refreshFrames_ast : (s.refreshFrames).ast = s.ast := rfl
@[simp] theorem State.refreshFrames_ict : (s.refreshFrames).ict = s.ict := rfl
@[simp] theorem State.refreshFrames_mga : (s.refreshFrames).mga = (s.mga.takeNotice s.tif.openField).1 := rfl
@[simp] theorem State.refreshFrames_pins : (s.refreshFrames).pins = s.pins := rfl
@[simp] theorem State.refreshFrames_pending : (s.refreshFrames).pending = s.pending := rfl

/-! ### `State.withAlloc` -/

@[simp] theorem State.withAlloc_fps (a : Alloc) : (s.withAlloc a).fps = s.fps := rfl
@[simp] theorem State.withAlloc_tif (a : Alloc) : (s.withAlloc a).tif = s.tif := rfl
@[simp] theorem State.withAlloc_ctb (a : Alloc) : (s.withAlloc a).ctb = a.ctb := rfl
@[simp] theorem State.withAlloc_lal (a : Alloc) : (s.withAlloc a).lal = a.lal := rfl
@[simp] theorem State.withAlloc_dmx (a : Alloc) : (s.withAlloc a).dmx = s.dmx := rfl
@[simp] theorem State.withAlloc_sif (a : Alloc) : (s.withAlloc a).sif = s.sif := rfl
@[simp] theorem State.withAlloc_ucb (a : Alloc) : (s.withAlloc a).ucb = { s.ucb with gates := a.gates } := rfl
@[simp] theorem State.withAlloc_bku (a : Alloc) : (s.withAlloc a).bku = s.bku := rfl
@[simp] theorem State.withAlloc_ast (a : Alloc) : (s.withAlloc a).ast = s.ast := rfl
@[simp] theorem State.withAlloc_ict (a : Alloc) : (s.withAlloc a).ict = s.ict := rfl
@[simp] theorem State.withAlloc_mga (a : Alloc) : (s.withAlloc a).mga = s.mga.raiseAll a.out := rfl
@[simp] theorem State.withAlloc_pins (a : Alloc) : (s.withAlloc a).pins = s.pins := rfl
@[simp] theorem State.withAlloc_pending (a : Alloc) : (s.withAlloc a).pending = s.pending := rfl

/-! ### `State.withSpans` -/

@[simp] theorem State.withSpans_fps (v : Spans) : (s.withSpans v).fps = s.fps := rfl
@[simp] theorem State.withSpans_tif (v : Spans) : (s.withSpans v).tif = s.tif := rfl
@[simp] theorem State.withSpans_ctb (v : Spans) : (s.withSpans v).ctb = s.ctb := rfl
@[simp] theorem State.withSpans_lal (v : Spans) : (s.withSpans v).lal = s.lal := rfl
@[simp] theorem State.withSpans_dmx (v : Spans) : (s.withSpans v).dmx = s.dmx := rfl
@[simp] theorem State.withSpans_sif (v : Spans) : (s.withSpans v).sif = { s.sif with ports := v.ports, remotes := v.remotes } := rfl
@[simp] theorem State.withSpans_ucb (v : Spans) : (s.withSpans v).ucb = { s.ucb with window := v.window } := rfl
@[simp] theorem State.withSpans_bku (v : Spans) : (s.withSpans v).bku = s.bku := rfl
@[simp] theorem State.withSpans_ast (v : Spans) : (s.withSpans v).ast = s.ast := rfl
@[simp] theorem State.withSpans_ict (v : Spans) : (s.withSpans v).ict = s.ict := rfl
@[simp] theorem State.withSpans_mga (v : Spans) : (s.withSpans v).mga = s.mga.raiseAll v.out := rfl
@[simp] theorem State.withSpans_pins (v : Spans) : (s.withSpans v).pins = s.pins := rfl
@[simp] theorem State.withSpans_pending (v : Spans) : (s.withSpans v).pending = s.pending := rfl

/-! ### `State.withBku` -/

@[simp] theorem State.withBku_fps (b : Bku) : (s.withBku b).fps = s.fps := rfl
@[simp] theorem State.withBku_tif (b : Bku) : (s.withBku b).tif = s.tif := rfl
@[simp] theorem State.withBku_ctb (b : Bku) : (s.withBku b).ctb = s.ctb := rfl
@[simp] theorem State.withBku_lal (b : Bku) : (s.withBku b).lal = s.lal := rfl
@[simp] theorem State.withBku_dmx (b : Bku) : (s.withBku b).dmx = s.dmx := rfl
@[simp] theorem State.withBku_sif (b : Bku) : (s.withBku b).sif = s.sif := rfl
@[simp] theorem State.withBku_ucb (b : Bku) : (s.withBku b).ucb = s.ucb := rfl
@[simp] theorem State.withBku_bku (b : Bku) : (s.withBku b).bku = b.unit := rfl
@[simp] theorem State.withBku_ast (b : Bku) : (s.withBku b).ast = s.ast := rfl
@[simp] theorem State.withBku_ict (b : Bku) : (s.withBku b).ict = s.ict := rfl
@[simp] theorem State.withBku_mga (b : Bku) : (s.withBku b).mga = s.mga.raiseAll b.out := rfl
@[simp] theorem State.withBku_pins (b : Bku) : (s.withBku b).pins = s.pins := rfl
@[simp] theorem State.withBku_pending (b : Bku) : (s.withBku b).pending = s.pending := rfl

/-! ### Ports, agent and players -/

@[simp] theorem TrunkSide.setPort_port (t : TrunkSide) (p : TrunkId) (x : TrunkPort) : (t.setPort p x).port p = x := by
  cases p <;> rfl
@[simp] theorem TrunkSide.setPort_other (t : TrunkSide) (p : TrunkId) (x : TrunkPort) :
    (t.setPort p x).port (otherTrunk p) = t.port (otherTrunk p) := by cases p <;> rfl
@[simp] theorem TrunkSide.setPort_outA (t : TrunkSide) (p : TrunkId) (x : TrunkPort) : (t.setPort p x).outA = t.outA := by
  cases p <;> rfl
@[simp] theorem TrunkSide.setPort_outB (t : TrunkSide) (p : TrunkId) (x : TrunkPort) : (t.setPort p x).outB = t.outB := by
  cases p <;> rfl

@[simp] theorem TrunkSide.setPort_settled (t : TrunkSide) (p : TrunkId) (x : TrunkPort) :
    (t.setPort p x).settled = t.settled := by cases p <;> rfl

variable (m : Agent) (p : TrunkId) (r : Response)

@[simp] theorem Agent.respond_queue : (m.respond p r).queue = m.queue := by cases p <;> rfl
@[simp] theorem Agent.respond_lost : (m.respond p r).lost = m.lost := by cases p <;> rfl
@[simp] theorem Agent.respond_causes : (m.respond p r).causes = m.causes := by cases p <;> rfl
@[simp] theorem Agent.respond_restart : (m.respond p r).restart = m.restart := by cases p <;> rfl
@[simp] theorem Agent.respond_response : (m.respond p r).response p = some r := by cases p <;> rfl
@[simp] theorem Agent.respond_other : (m.respond p r).response (otherTrunk p) = m.response (otherTrunk p) := by
  cases p <;> rfl

@[simp] theorem Agent.takeNotice_none : m.takeNotice none = (m, none) := rfl
@[simp] theorem Agent.takeNotice_respA (o : Option TrunkId) : (m.takeNotice o).1.respA = m.respA := by
  unfold Agent.takeNotice; split <;> rfl
@[simp] theorem Agent.takeNotice_respB (o : Option TrunkId) : (m.takeNotice o).1.respB = m.respB := by
  unfold Agent.takeNotice; split <;> rfl
@[simp] theorem Agent.takeNotice_causes (o : Option TrunkId) : (m.takeNotice o).1.causes = m.causes := by
  unfold Agent.takeNotice; split <;> rfl
@[simp] theorem Agent.takeNotice_restart (o : Option TrunkId) : (m.takeNotice o).1.restart = m.restart := by
  unfold Agent.takeNotice; split <;> rfl

@[simp] theorem BreakIn.player_setPlayer (b : BreakIn) (id : PlayerId) (x : Player) : (b.setPlayer id x).player id = x := by
  cases id <;> rfl
@[simp] theorem BreakIn.setPlayer_queue (b : BreakIn) (id : PlayerId) (x : Player) : (b.setPlayer id x).queue = b.queue := by
  cases id <;> rfl
@[simp] theorem BreakIn.setPlayer_params (b : BreakIn) (id : PlayerId) (x : Player) :
    (b.setPlayer id x).params = b.params := by cases id <;> rfl

/-! ### The hold of a reset -/

@[simp] theorem State.respond_held : (s.respond p r).held = s.held := rfl
@[simp] theorem State.refreshFrames_held : s.refreshFrames.held = s.held := rfl
@[simp] theorem State.raiseAll_held (ns : List Notice) : (s.raiseAll ns).held = s.held := rfl

end Sys2Proof.Machine
end

