-- ==== Sys2Proof/Laws/Requests.lean ====
section
/-! SUPPORT. What the shared operations over requests, events and notices can do, each said once. -/
namespace Sys2Proof.Machine

/-- The three ways in which a request passes the first checks of R192. -/
theorem check_cases (p : TrunkId) (tag code : Nat) (act : State → Answer) (s : State) :
    (tag = 0 ∧ check p tag code act s = refuse .malformed s) ∨
    (tag ≠ 0 ∧ code ≠ 1 ∧ s.tif.settled ≠ some p ∧ check p tag code act s = refuse .notActive s) ∨
    (tag ≠ 0 ∧ (code = 1 ∨ s.tif.settled = some p) ∧ check p tag code act s = act s) := by
  unfold check rdrecCode
  by_cases h : tag = 0
  · exact .inl ⟨h, by simp [h]⟩
  · by_cases hc : code = 1
    · exact .inr (.inr ⟨h, .inl hc, by simp [h, hc]⟩)
    · by_cases hr : s.tif.settled = some p
      · exact .inr (.inr ⟨h, .inr hr, by simp [h, hr]⟩)
      · exact .inr (.inl ⟨h, hc, hr, by simp [h, hc, hr]⟩)

/-- A request that the hub hears is answered as its kind carries it out. -/
theorem requestCommand_heard {p : TrunkId} {tag : Nat} {s : State} (h : s.hears p tag) (code : Nat) (act : State → Answer) :
    requestCommand p tag code act s = .next ((act s).state.answered p tag code (act s).status (act s).body) := by
  obtain ⟨h1, h2, h3⟩ := h
  simp [requestCommand, h1, serve, check, h2, h3, State.answered]

/-- RDREC is executed from a port in any role. -/
theorem requestCommand_read {p : TrunkId} {tag : Nat} {s : State} (h : s.held = false) (ht : tag ≠ 0) (act : State → Answer) :
    requestCommand p tag 1 act s = .next ((act s).state.answered p tag 1 (act s).status (act s).body) := by
  simp [requestCommand, h, serve, check, ht, rdrecCode, State.answered]

/-- A request while the hub is held in reset changes nothing. -/
theorem requestCommand_held {p : TrunkId} {tag : Nat} {s : State} (h : s.held = true) (code : Nat) (act : State → Answer) :
    requestCommand p tag code act s = .next s := by simp [requestCommand, h]

/-- A request always leads to a next state. -/
theorem requestCommand_next (p : TrunkId) (tag code : Nat) (act : State → Answer) (s : State) :
    ∃ t, requestCommand p tag code act s = .next t := ⟨_, rfl⟩

/-- An event always leads to a next state. -/
theorem eventCommand_next (act : State → State) (s : State) : ∃ t, eventCommand act s = .next t := ⟨_, rfl⟩

/-- An event takes place while the hub is not held in reset. -/
theorem eventCommand_awake {s : State} (h : s.held = false) (act : State → State) : eventCommand act s = .next (act s) := by
  simp [eventCommand, h]

/-- An event while the hub is held in reset changes nothing. -/
theorem eventCommand_held {s : State} (h : s.held = true) (act : State → State) : eventCommand act s = .next s := by
  simp [eventCommand, h]

/-! ### The notice queue (R197) -/

/-- The law of the queue on its own: length, keys and counts. -/
def queueOk (q : List Entry) : Prop :=
  q.length ≤ 32 ∧ (q.map fun e => (e.latest.kindCode, e.latest.subject)).Nodup ∧ ∀ e ∈ q, 1 ≤ e.count ∧ e.count ≤ 255

/-- A notice raised touches the queue and the lost flag alone. -/
theorem Agent.raise_frame (m : Agent) (n : Notice) :
    (m.raise n).respA = m.respA ∧ (m.raise n).respB = m.respB ∧ (m.raise n).causes = m.causes ∧ (m.raise n).restart = m.restart := by
  unfold Agent.raise
  split
  · exact ⟨rfl, rfl, rfl, rfl⟩
  · split <;> exact ⟨rfl, rfl, rfl, rfl⟩

/-- Notices raised touch the queue and the lost flag alone. -/
theorem Agent.raiseAll_frame (ns : List Notice) : ∀ m : Agent,
    (m.raiseAll ns).respA = m.respA ∧ (m.raiseAll ns).respB = m.respB ∧ (m.raiseAll ns).causes = m.causes ∧
    (m.raiseAll ns).restart = m.restart := by
  induction ns with
  | nil => intro m; exact ⟨rfl, rfl, rfl, rfl⟩
  | cons n ns ih =>
    intro m
    have h1 := Agent.raise_frame m n
    have h2 := ih (m.raise n)
    simp only [Agent.raiseAll, List.foldl_cons] at h2 ⊢
    exact ⟨h2.1.trans h1.1, h2.2.1.trans h1.2.1, h2.2.2.1.trans h1.2.2.1, h2.2.2.2.trans h1.2.2.2⟩

@[simp] theorem Agent.raiseAll_respA (m : Agent) (ns : List Notice) : (m.raiseAll ns).respA = m.respA :=
  (Agent.raiseAll_frame ns m).1
@[simp] theorem Agent.raiseAll_respB (m : Agent) (ns : List Notice) : (m.raiseAll ns).respB = m.respB :=
  (Agent.raiseAll_frame ns m).2.1
@[simp] theorem Agent.raiseAll_causes (m : Agent) (ns : List Notice) : (m.raiseAll ns).causes = m.causes :=
  (Agent.raiseAll_frame ns m).2.2.1
@[simp] theorem Agent.raiseAll_restart (m : Agent) (ns : List Notice) : (m.raiseAll ns).restart = m.restart :=
  (Agent.raiseAll_frame ns m).2.2.2

/-- The key of an entry. -/
theorem Entry.sameKey_iff (e : Entry) (n : Notice) :
    e.sameKey n = true ↔ (e.latest.kindCode, e.latest.subject) = (n.kindCode, n.subject) := by
  simp [Entry.sameKey]

/-- One notice raised keeps the law of the queue. -/
theorem Agent.raise_queueOk {m : Agent} (h : queueOk m.queue) (n : Notice) : queueOk (m.raise n).queue := by
  obtain ⟨h1, h2, h3⟩ := h
  unfold Agent.raise
  split
  · refine ⟨by simpa using h1, ?_, ?_⟩
    · have : (m.queue.map fun e => if e.sameKey n then (⟨n, min 255 (e.count + 1)⟩ : Entry) else e).map
          (fun e => (e.latest.kindCode, e.latest.subject)) = m.queue.map fun e => (e.latest.kindCode, e.latest.subject) := by
        rw [List.map_map]
        apply List.map_congr_left
        intro e _
        by_cases hk : e.sameKey n = true
        · simp [hk, ((Entry.sameKey_iff e n).1 hk)]
        · simp [hk]
      rw [this]; exact h2
    · intro e he
      obtain ⟨x, hx, rfl⟩ := List.mem_map.1 he
      have := h3 x hx
      split
      · simp only; omega
      · exact this
  · rename_i hany
    split
    · rename_i hlen
      refine ⟨by simp; omega, ?_, ?_⟩
      · rw [List.map_append, List.nodup_append]
        refine ⟨h2, by simp, ?_⟩
        intro a ha b hb hab
        obtain ⟨x, hx, rfl⟩ := List.mem_map.1 ha
        simp only [List.map_cons, List.map_nil, List.mem_singleton] at hb
        apply hany
        rw [List.any_eq_true]
        exact ⟨x, hx, (Entry.sameKey_iff x n).2 (hab.trans hb)⟩
      · intro e he
        rcases List.mem_append.1 he with he | he
        · exact h3 e he
        · simp only [List.mem_singleton] at he; subst he; simp
    · exact ⟨h1, h2, h3⟩

/-- Notices raised keep the law of the queue. -/
theorem Agent.raiseAll_queueOk (ns : List Notice) : ∀ {m : Agent}, queueOk m.queue → queueOk (m.raiseAll ns).queue := by
  induction ns with
  | nil => intro m h; exact h
  | cons n ns ih => intro m h; exact ih (Agent.raise_queueOk h n)

/-- What taking a notice can do: nothing, where no port is ACTIVE or nothing waits; else the oldest entry leaves with the lost
flag, which is then clear (R198). -/
theorem Agent.takeNotice_cases (m : Agent) (o : Option TrunkId) :
    (m.takeNotice o = (m, none) ∧ (o = none ∨ m.queue = [])) ∨
    ∃ (p : TrunkId) (e : Entry) (rest : List Entry), o = some p ∧ m.queue = e :: rest ∧
      m.takeNotice o = ({ m with queue := rest, lost := false }, some ⟨e, m.lost⟩) := by
  cases o with
  | none => exact .inl ⟨rfl, .inl rfl⟩
  | some p =>
    cases hq : m.queue with
    | nil => exact .inl ⟨by simp [Agent.takeNotice, hq], .inr rfl⟩
    | cons e rest => exact .inr ⟨p, e, rest, rfl, rfl, by simp [Agent.takeNotice, hq]⟩

/-- Taking a notice keeps the law of the queue. -/
theorem Agent.takeNotice_queueOk {m : Agent} (h : queueOk m.queue) (o : Option TrunkId) : queueOk (m.takeNotice o).1.queue := by
  rcases m.takeNotice_cases o with ⟨e, -⟩ | ⟨p, e, rest, -, hq, ht⟩
  · rw [e]; exact h
  · rw [ht]
    rw [hq] at h
    exact ⟨by have := h.1; simp only [List.length_cons] at this; simp only; omega, (List.nodup_cons.1 h.2.1).2,
      fun x hx => h.2.2 x (List.mem_cons_of_mem _ hx)⟩

end Sys2Proof.Machine
end

