-- ==== Sys2Proof/Laws/Incident.lean ====
section
/-! SUPPORT. The INCIDENT event and the change of levels: what they leave alone, and that INCIDENT is the first notice of the event. -/
namespace Sys2Proof.Machine

variable (cause : IncidentCause) (mask : Nat) (i : Incident) (s : State)

@[simp] theorem incidentEvent_fps : (incidentEvent cause mask s).fps = s.fps := by simp [incidentEvent]
@[simp] theorem incidentEvent_tif : (incidentEvent cause mask s).tif = s.tif := by simp [incidentEvent]
@[simp] theorem incidentEvent_dmx : (incidentEvent cause mask s).dmx = s.dmx := by simp [incidentEvent]
@[simp] theorem incidentEvent_sif : (incidentEvent cause mask s).sif = s.sif := by simp [incidentEvent]
@[simp] theorem incidentEvent_ast : (incidentEvent cause mask s).ast = s.ast := by simp [incidentEvent]
@[simp] theorem incidentEvent_ict : (incidentEvent cause mask s).ict = s.ict := by simp [incidentEvent]
@[simp] theorem incidentEvent_pins : (incidentEvent cause mask s).pins = s.pins := by simp [incidentEvent]
@[simp] theorem incidentEvent_pending : (incidentEvent cause mask s).pending = s.pending := by simp [incidentEvent]

/-- Notices raised one list after the other. -/
theorem Agent.raiseAll_append (m : Agent) (xs ys : List Notice) : m.raiseAll (xs ++ ys) = (m.raiseAll xs).raiseAll ys := by
  simp [Agent.raiseAll]

@[simp] theorem State.raise_alloc (n : Notice) : (s.raise n).alloc = s.alloc := rfl
@[simp] theorem State.withAlloc_bkuView (a : Alloc) : (s.withAlloc a).bkuView = s.bkuView := rfl
@[simp] theorem State.raise_bkuView (n : Notice) : (s.raise n).bkuView = s.bkuView := rfl

/-- The INCIDENT event, its parts read from the state before it (R185). -/
theorem incidentEvent_eq :
    incidentEvent cause mask s =
      ((s.raise (.incident s.ict.effective s.ict.latched s.ict.commanded s.ict.lineLevel cause)).withAlloc
        (s.alloc.incident s.ict.row)).withBku (s.bkuView.maskChange mask s.ict.row.announceMask) := by
  simp [incidentEvent]

/-- INCIDENT is the first notice of its event (R185). -/
theorem incidentEvent_mga :
    ∃ more : List Notice, (incidentEvent cause mask s).mga =
      s.mga.raiseAll (.incident s.ict.effective s.ict.latched s.ict.commanded s.ict.lineLevel cause :: more) := by
  refine ⟨(s.alloc.incident s.ict.row).out ++ (s.bkuView.maskChange mask s.ict.row.announceMask).out, ?_⟩
  rw [incidentEvent_eq, ← List.singleton_append, Agent.raiseAll_append, Agent.raiseAll_append]
  simp

/-- Carrier states and fields and group configurations stay across INCIDENT (R40). -/
theorem incidentEvent_keeps :
    (∀ c : CarrierId, ((incidentEvent cause mask s).ctb.get c).state = (s.ctb.get c).state ∧
      ((incidentEvent cause mask s).ctb.get c).fields = (s.ctb.get c).fields) ∧
    ∀ g : GroupId, configOf (incidentEvent cause mask s).lal g = configOf s.lal g := by
  have h := Alloc.incident_keeps s.ict.row s.alloc
  rw [incidentEvent_eq]
  refine ⟨fun c => ?_, fun g => ?_⟩
  · rw [State.withBku_ctb, State.withAlloc_ctb]; exact h.1 c
  · rw [State.withBku_lal, State.withAlloc_lal]; exact h.2 g

@[simp] theorem changeLevels_ict : (changeLevels cause i s).ict = i := by
  unfold changeLevels; split <;> simp
@[simp] theorem changeLevels_fps : (changeLevels cause i s).fps = s.fps := by
  unfold changeLevels; split <;> simp
@[simp] theorem changeLevels_tif : (changeLevels cause i s).tif = s.tif := by
  unfold changeLevels; split <;> simp
@[simp] theorem changeLevels_dmx : (changeLevels cause i s).dmx = s.dmx := by
  unfold changeLevels; split <;> simp
@[simp] theorem changeLevels_sif : (changeLevels cause i s).sif = s.sif := by
  unfold changeLevels; split <;> simp
@[simp] theorem changeLevels_ast : (changeLevels cause i s).ast = s.ast := by
  unfold changeLevels; split <;> simp

end Sys2Proof.Machine
end

