-- ==== Sys2Proof/Laws/Lines.lean ====
section
/-! SUPPORT. Bytes on the line: what fields read back, and that a frame or cell with its check appended passes that check. -/
namespace Sys2Proof.Machine

@[simp] theorem be_length (k n : Nat) : (be k n).length = k := by
  induction k with
  | zero => rfl
  | succ k ih => simp [be, ih]

/-- The number read from a string, with the bytes of a second string behind it. -/
theorem number_append (xs ys : List Byte) : number (xs ++ ys) = number xs * 256 ^ ys.length + number ys := by
  have key : ∀ (ys : List Byte) (acc : Nat),
      ys.foldl (fun acc b => acc * 256 + b.toNat) acc = acc * 256 ^ ys.length + number ys := by
    intro ys
    induction ys with
    | nil => intro acc; simp [number]
    | cons y ys ih =>
      intro acc
      have h1 := ih (acc * 256 + y.toNat)
      have h2 := ih (0 * 256 + y.toNat)
      simp only [number, List.foldl_cons, List.length_cons] at h1 h2 ⊢
      rw [h1, h2, pow_succ]
      ring
  simp only [number, List.foldl_append]
  exact key ys _

/-- A number laid down in `k` bytes reads back modulo 256^k (R207). -/
theorem number_be (k n : Nat) : number (be k n) = n % 256 ^ k := by
  induction k with
  | zero => simp [be, number, Nat.mod_one]
  | succ k ih =>
    have h : be (k + 1) n = [BitVec.ofNat 8 (n / 256 ^ k)] ++ be k n := rfl
    rw [h, number_append, ih, be_length]
    have h1 : number [BitVec.ofNat 8 (n / 256 ^ k)] = n / 256 ^ k % 256 := by simp [number]
    rw [h1, pow_succ, Nat.mod_mul, Nat.mul_comm (256 ^ k)]
    omega

/-- The bytes behind a prefix of known length. -/
theorem bytesAt_behind (xs ys : List Byte) (k : Nat) (h : ys.length = k) : bytesAt (xs ++ ys) xs.length k = ys := by
  subst h; simp [bytesAt]

/-- A frame with its check appended passes the check (R208). -/
theorem frameCheckPasses_withFrameCheck (bs : List Byte) : frameCheckPasses (bs.length + 4) (withFrameCheck bs) = true := by
  have h := (crc32 bs).isLt
  simp only [frameCheckPasses, withFrameCheck, field, Nat.add_sub_cancel, List.take_left]
  rw [bytesAt_behind _ _ 4 (be_length 4 _), number_be, Nat.mod_eq_of_lt (by omega)]
  simp

/-- A trunk frame of the right length with its check appended is good (R208). -/
theorem trunkFrameGood_withFrameCheck (bs : List Byte) (h : bs.length = 4660) : trunkFrameGood (withFrameCheck bs) = true := by
  have := frameCheckPasses_withFrameCheck bs
  rwa [h] at this

/-- A section with its check appended passes the check (R208). -/
theorem sectionCheckPasses_withCellCheck (bs : List Byte) (h : bs.length = 3076) : sectionCheckPasses (withCellCheck bs) = true := by
  have hlt := (crc16 bs).isLt
  simp only [sectionCheckPasses, withCellCheck, field]
  rw [← h, bytesAt_behind _ _ 2 (be_length 2 _), number_be, Nat.mod_eq_of_lt (by omega), List.take_left]
  simp

end Sys2Proof.Machine
end

