-- ==== Sys2Proof/Laws/Memory.lean ====
section
/-! SUPPORT. The store's memory: a byte written is read back, every other byte reads as before, and every operation keeps the canonical form. -/
namespace Sys2Proof.Machine

theorem Memory.wfFrom_mono {lo hi : Nat} (h : lo ≤ hi) : ∀ {m : Memory}, Memory.wfFrom hi m = true → Memory.wfFrom lo m = true
  | [], _ => rfl
  | (k, b) :: m, w => by
    simp only [Memory.wfFrom, Bool.and_eq_true, decide_eq_true_eq] at w ⊢
    exact ⟨⟨by omega, w.1.2⟩, w.2⟩

/-- Below the lowest listed address every byte reads as unlisted. -/
theorem Memory.read_below : ∀ {m : Memory} {lo a : Nat}, Memory.wfFrom lo m = true → a < lo → m.read a = unlisted
  | [], _, _, _, _ => rfl
  | (k, b) :: m, lo, a, w, h => by
    simp only [Memory.wfFrom, Bool.and_eq_true, decide_eq_true_eq] at w
    have hk : k ≠ a := by omega
    simp only [Memory.read, hk, if_false]
    exact Memory.read_below w.2 (by omega)

theorem Memory.wfFrom_cell {lo a : Nat} {b : Byte} {m : Memory} (h : lo ≤ a) (w : Memory.wfFrom (a + 1) m = true) :
    Memory.wfFrom lo (Memory.cell a b m) = true := by
  unfold Memory.cell
  split
  · exact Memory.wfFrom_mono (by omega) w
  · rename_i hb
    simp [Memory.wfFrom, h, hb, w]

theorem Memory.read_cell_self {a : Nat} {b : Byte} {m : Memory} (w : Memory.wfFrom (a + 1) m = true) :
    (Memory.cell a b m).read a = b := by
  unfold Memory.cell
  split
  · rename_i hb
    rw [Memory.read_below w (by omega), hb]
  · simp [Memory.read]

theorem Memory.read_cell_ne {a c : Nat} {b : Byte} {m : Memory} (h : a ≠ c) : (Memory.cell a b m).read c = m.read c := by
  unfold Memory.cell
  split
  · rfl
  · simp [Memory.read, h]

theorem Memory.write_wfFrom : ∀ {m : Memory} {lo a : Nat} {b : Byte}, lo ≤ a → Memory.wfFrom lo m = true →
    Memory.wfFrom lo (m.write a b) = true
  | [], lo, a, b, h, _ => by
    unfold Memory.write
    exact Memory.wfFrom_cell h rfl
  | (k, c) :: m, lo, a, b, h, w => by
    simp only [Memory.wfFrom, Bool.and_eq_true, decide_eq_true_eq] at w
    unfold Memory.write
    split
    · rename_i hk
      exact Memory.wfFrom_cell h (by simp [Memory.wfFrom, w.1.2, w.2]; omega)
    · split
      · rename_i hk
        exact Memory.wfFrom_cell h (by rw [hk]; exact w.2)
      · have := Memory.write_wfFrom (b := b) (by omega : k + 1 ≤ a) w.2
        simp [Memory.wfFrom, w.1, this]

/-- A write keeps the canonical form. -/
theorem Memory.write_wf {m : Memory} {a : Nat} {b : Byte} (w : m.wf = true) : (m.write a b).wf = true :=
  Memory.write_wfFrom (Nat.zero_le a) w

/-- A run of writes keeps the canonical form. -/
theorem Memory.writeRun_wf : ∀ {bs : List Byte} {m : Memory} {a : Nat}, m.wf = true → (m.writeRun a bs).wf = true
  | [], _, _, w => w
  | b :: bs, m, a, w => by
    show ((m.write a b).writeRun (a + 1) bs).wf = true
    exact Memory.writeRun_wf (Memory.write_wf w)

/-- Dropping cells keeps the canonical form. -/
theorem Memory.filter_wfFrom (f : Nat × Byte → Bool) : ∀ {m : Memory} {lo : Nat}, Memory.wfFrom lo m = true →
    Memory.wfFrom lo (m.filter f) = true
  | [], _, _ => rfl
  | (k, b) :: m, lo, w => by
    simp only [Memory.wfFrom, Bool.and_eq_true, decide_eq_true_eq] at w
    have ih := Memory.filter_wfFrom f w.2
    simp only [List.filter_cons]
    split
    · simp [Memory.wfFrom, w.1, ih]
    · exact Memory.wfFrom_mono (by omega) ih

/-- Clearing a range keeps the canonical form. -/
theorem Memory.clear_wf {m : Memory} {lo hi : Nat} (w : m.wf = true) : (m.clear lo hi).wf = true :=
  Memory.filter_wfFrom _ w

/-- Read after write, in a memory of canonical form. -/
theorem Memory.read_write_from : ∀ {m : Memory} {lo a : Nat} {b : Byte}, Memory.wfFrom lo m = true → lo ≤ a →
    ∀ c, (m.write a b).read c = if a = c then b else m.read c
  | [], lo, a, b, _, _, c => by
    unfold Memory.write
    split
    · rename_i h; subst h; exact Memory.read_cell_self rfl
    · rename_i h; exact Memory.read_cell_ne h
  | (k, x) :: m, lo, a, b, w, h, c => by
    simp only [Memory.wfFrom, Bool.and_eq_true, decide_eq_true_eq] at w
    unfold Memory.write
    split
    · rename_i hk
      split
      · rename_i hc; subst hc
        exact Memory.read_cell_self (by simp [Memory.wfFrom, w.1.2, w.2]; omega)
      · rename_i hc; exact Memory.read_cell_ne hc
    · split
      · rename_i hk; subst hk
        split
        · rename_i hc; subst hc; exact Memory.read_cell_self w.2
        · rename_i hc
          rw [Memory.read_cell_ne hc]
          simp [Memory.read, hc]
      · rename_i h1 h2
        have ih := Memory.read_write_from (b := b) w.2 (by omega : k + 1 ≤ a) c
        simp only [Memory.read]
        split
        · rename_i hc
          have : a ≠ c := by omega
          simp [this]
        · exact ih

/-- Read after write. -/
theorem Memory.read_write {m : Memory} {a : Nat} {b : Byte} (w : m.wf = true) (c : Nat) :
    (m.write a b).read c = if a = c then b else m.read c :=
  Memory.read_write_from w (Nat.zero_le a) c

/-- Read after a run of writes: inside the run its bytes, outside it the memory as before. -/
theorem Memory.read_writeRun : ∀ {bs : List Byte} {m : Memory} {a : Nat}, m.wf = true → ∀ c,
    (m.writeRun a bs).read c = if a ≤ c then (bs[c - a]?).getD (m.read c) else m.read c
  | [], m, a, _, c => by simp [Memory.writeRun]
  | b :: bs, m, a, w, c => by
    simp only [Memory.writeRun]
    rw [Memory.read_writeRun (Memory.write_wf w), Memory.read_write w]
    rcases Nat.lt_trichotomy c a with h | h | h
    · have h1 : ¬ a + 1 ≤ c := by omega
      have h2 : a ≠ c := by omega
      have h3 : ¬ a ≤ c := by omega
      simp [h1, h2, h3]
    · subst h; simp
    · have h1 : a + 1 ≤ c := by omega
      have h2 : a ≠ c := by omega
      have h3 : a ≤ c := by omega
      have h4 : c - a = (c - (a + 1)) + 1 := by omega
      simp [h1, h2, h3, h4]

/-- Read after a clear: inside the range as unlisted, outside it as before. -/
theorem Memory.read_clear {lo hi : Nat} : ∀ {m : Memory} {k : Nat}, Memory.wfFrom k m = true → ∀ c,
    (m.clear lo hi).read c = if lo ≤ c ∧ c < hi then unlisted else m.read c
  | [], _, _, c => by simp [Memory.clear, Memory.read]
  | (k, b) :: m, j, w, c => by
    simp only [Memory.wfFrom, Bool.and_eq_true, decide_eq_true_eq] at w
    have ih := Memory.read_clear (lo := lo) (hi := hi) w.2 c
    simp only [Memory.clear] at ih ⊢
    simp only [List.filter_cons]
    split
    · rename_i hk
      simp only [Bool.or_eq_true, decide_eq_true_eq] at hk
      simp only [Memory.read]
      split
      · rename_i hc; subst hc
        have : ¬ (lo ≤ k ∧ k < hi) := by omega
        simp [this]
      · exact ih
    · rename_i hk
      simp only [Bool.or_eq_true, decide_eq_true_eq] at hk
      rw [ih]
      split
      · rfl
      · rename_i hc
        have : k ≠ c := by omega
        simp [Memory.read, this]

end Sys2Proof.Machine
end

