-- ==== Sys2Proof/Laws/Spans.lean ====
section
/-! SUPPORT. The span interface's operations on contexts, ports and the combine window, each said once. -/
namespace Sys2Proof.Machine

@[simp] theorem Remote.ctx_setCtx_self (r : Remote) (sd : Side) (c : Context) : (r.setCtx sd c).ctx sd = c := by
  cases sd <;> rfl

@[simp] theorem Remote.ctx_setCtx_other (r : Remote) (sd : Side) (c : Context) :
    (r.setCtx sd c).ctx (otherSide sd) = r.ctx (otherSide sd) := by cases sd <;> rfl

theorem Remote.ctx_setCtx (r : Remote) (sd sd' : Side) (c : Context) :
    (r.setCtx sd c).ctx sd' = if sd = sd' then c else r.ctx sd' := by cases sd <;> cases sd' <;> rfl

/-- A context after one has been replaced. -/
theorem Spans.ctx_setCtx (v : Spans) (g h : GroupId) (k j : Pos) (sd sd' : Side) (c : Context) :
    (v.setCtx g k sd c).ctx h j sd' = if g = h ∧ k = j ∧ sd = sd' then c else v.ctx h j sd' := by
  unfold Spans.setCtx Spans.editRemote Spans.ctx Spans.remote
  by_cases e1 : g = h
  · subst e1
    by_cases e2 : k = j
    · subst e2; simp [Remote.ctx_setCtx]
    · simp [e2]
  · simp [e1]

/-- What a context that goes to WAITING leaves: the context, its sections withdrawn, and one notice (R75). -/
theorem Spans.toWaiting_spec (v : Spans) (g : GroupId) (k : Pos) (sd : Side) (why : WaitReason) :
    let w := v.toWaiting g k sd why
    (∀ (h : GroupId) (j : Pos) (sd' : Side), w.ctx h j sd' =
      if g = h ∧ k = j ∧ sd = sd' then { v.ctx g k sd with state := .waiting, reason := some why, missRun := 0 } else v.ctx h j sd') ∧
    w.ports = v.ports ∧ w.window = withdraw v.window g k sd ∧ w.out = v.out ++ [.remoteState g k sd .waiting (some why)] :=
  ⟨fun h j sd' => Spans.ctx_setCtx v g h k j sd sd' _, rfl, rfl, rfl⟩

/-- Withdrawing opens and closes no slot. -/
theorem openSlots_withdraw (w : List WindowSlot) (g : GroupId) (k : Pos) (sd : Side) :
    openSlots (withdraw w g k sd) = openSlots w := by
  simp [openSlots, withdraw, Function.comp_def]

/-- Filing opens and closes no slot. -/
theorem openSlots_fileSection (w : List WindowSlot) (e : FrameNo) (f : Filed) : openSlots (fileSection w e f) = openSlots w := by
  unfold openSlots fileSection
  rw [List.map_map]
  apply List.map_congr_left
  intro x _
  by_cases h : x.hfn = e <;> simp [h]

/-- A port that goes DOWN silences contexts of its own group and side, and touches no port (R73). -/
theorem Spans.silence_frame (g : GroupId) (sd : Side) (v : Spans) (k : Pos) :
    (Spans.silence g sd v k).ports = v.ports ∧ openSlots (Spans.silence g sd v k).window = openSlots v.window := by
  unfold Spans.silence
  split
  · exact ⟨rfl, openSlots_withdraw _ _ _ _⟩
  · exact ⟨rfl, rfl⟩

/-- The port moves and no other; the window keeps its slots (R72, R73). -/
theorem Spans.movePort_frame (lal : Table Group 8) (v : Spans) (p : SpanId) (vd : SpanVerdict) :
    (v.movePort lal p vd).ports = v.ports.put p ((v.ports.get p).move vd) ∧
    openSlots (v.movePort lal p vd).window = openSlots v.window := by
  have key : ∀ (g : GroupId) (sd : Side) (ks : List Pos) (u : Spans),
      (ks.foldl (Spans.silence g sd) u).ports = u.ports ∧ openSlots (ks.foldl (Spans.silence g sd) u).window = openSlots u.window := by
    intro g sd ks
    induction ks with
    | nil => intro u; exact ⟨rfl, rfl⟩
    | cons k ks ih =>
      intro u
      have h1 := ih (Spans.silence g sd u k)
      have h2 := Spans.silence_frame g sd u k
      exact ⟨h1.1.trans h2.1, h1.2.trans h2.2⟩
  have said : ∀ (c : Prop) [Decidable c] (u : Spans) (n : Notice),
      (if c then u else u.say n).ports = u.ports ∧ openSlots (if c then u else u.say n).window = openSlots u.window := by
    intro c _ u n
    split <;> exact ⟨rfl, rfl⟩
  unfold Spans.movePort
  dsimp only
  split
  · rename_i g sd _ _ _
    obtain ⟨h1, h2⟩ := key g sd (List.finRange 6) _
    rw [h1, h2]
    exact said _ _ _
  · exact said _ _ _

end Sys2Proof.Machine
end

