-- ==== Sys2Proof/Tests/Slice0.lean ====
section
/-! SUPPORT. Tests: ill-formed commands refused, worked figures of the spec, and for every statement with hypotheses a state and operands that meet them. -/
namespace Sys2Proof.Tests

-- One theorem at a time: waiting ones would each hold a thread and its stack.
set_option Elab.async false

open Sys2Proof Sys2Proof.Machine

/-! ### Ill-formed commands are refused, check by check -/

theorem test_tag_of_two_bytes_refused : (Instr.save .a 256).wellFormed = false := by decide
theorem test_carset_wide_rf_code_refused :
    (Instr.carset .a 1 ⟨0, 0, 65536, 255, 255, 0, 0, 0, 0, 0, 0, 0, 0, 0, 0, 0⟩).wellFormed = false := by decide
theorem test_grpset_wide_ceiling_refused :
    (Instr.grpset .a 1 ⟨0, 0, 1, 1099511627776, 0, 0, 0⟩).wellFormed = false := by decide
theorem test_profset_wide_row_refused : (Instr.profset .a 1 ⟨256, 0, 0, 0, 0, 0, 0⟩).wellFormed = false := by decide
theorem test_annc_wide_carrier_set_refused :
    (Instr.annc .a 1 ⟨1, 0, 0, 0, 0, 1, 0, 18446744073709551616⟩).wellFormed = false := by decide
theorem test_voxset_wide_amplitude_refused : (Instr.voxset .a 1 ⟨0, 65536, 0, 0⟩).wellFormed = false := by decide
theorem test_msgdef_wide_gain_refused : (Instr.msgdef .a 1 ⟨0, 0, 1, 65536⟩).wellFormed = false := by decide
theorem test_rdrec_wide_selector_refused : (Instr.rdrec .a 1 (.storePage 65536 0 1) 0).wellFormed = false := by decide
theorem test_rdrec_wide_part_refused : (Instr.rdrec .a 1 .reference 256).wellFormed = false := by decide
theorem test_carrier_of_two_bytes_refused :
    (Instr.caron .a 1 256).wellFormed = false ∧ (Instr.caroff .a 1 256).wellFormed = false ∧
    (Instr.carclr .a 1 256).wellFormed = false ∧ (Instr.trim .a 1 0 0 65536).wellFormed = false := by decide
theorem test_numbers_of_two_bytes_refused :
    (Instr.sprst .a 1 256).wellFormed = false ∧ (Instr.incset .a 1 256).wellFormed = false ∧
    (Instr.ancan .a 1 256).wellFormed = false ∧ (Instr.blkerase .a 1 256).wellFormed = false ∧
    (Instr.blkguard .a 1 0 256).wellFormed = false ∧ (Instr.msgclr .a 1 256).wellFormed = false ∧
    (Instr.trksel .a 1 256).wellFormed = false ∧ (Instr.restart .a 1 256).wellFormed = false := by decide
theorem test_page_of_three_bytes_refused :
    (Instr.pgopen .a 1 65536).wellFormed = false ∧ (Instr.pgdata .a 1 65536 [0]).wellFormed = false := by decide
theorem test_pgdata_longer_than_a_cell_refused : (Instr.pgdata .a 1 0 (List.replicate 41 0)).wellFormed = false := by decide
theorem test_timset_wide_values_refused :
    (Instr.timset .a 1 4294967296 0).wellFormed = false ∧ (Instr.timset .a 1 0 128).wellFormed = false := by decide
theorem test_largest_values_accepted :
    (Instr.timset .b 255 4294967295 (-128)).wellFormed = true ∧ (Instr.trim .a 255 255 255 65535).wellFormed = true := by decide

/-! ### Worked figures of the spec -/

/-- Section 11.3: the CRC-32 and CRC-16 of the nine bytes 31 to 39 hexadecimal. -/
theorem test_check_values :
    crc32 [0x31, 0x32, 0x33, 0x34, 0x35, 0x36, 0x37, 0x38, 0x39] = 0xFC891918#32 ∧
    crc16 [0x31, 0x32, 0x33, 0x34, 0x35, 0x36, 0x37, 0x38, 0x39] = 0x29B1#16 := by decide +kernel

/-- R211: the notice field of a REMOTE_SIDE of group 4, position 5, side B, once, nothing lost. -/
theorem test_notice_field : (noticeField (some ⟨⟨.remoteSide 4 4 .b, 1⟩, false⟩)).take 4 = [64, 37, 1, 128] := by decide +kernel

/-- R152: the table entries of the quarter points. -/
theorem test_sine_quarters :
    sinTable 0 = 0 ∧ sinTable 256 = 32767 ∧ sinTable 768 = -32767 ∧ cosTable 0 = 32767 ∧ cosTable 512 = -32767 := by decide

/-! ### Worked figures of the chapters -/

/-- Section 3.3: the cross-fade of (8000, -4000) and (16284, 1806) at fade value 1024, and the gains of L7 and L3 of G2. -/
theorem test_cross_fade_and_gain :
    crossFade 8000 16284 1024 = 10071 ∧ crossFade (-4000) 1806 1024 = -2549 ∧ laneGain 4096 5120 = 5120 ∧
    effectiveGain true 5120 3000 = 5120 ∧ effectiveGain false 5120 3000 = 3750 ∧ applyGain 10071 3750 = 9220 ∧
    applyGain (-2549) 3750 = -2334 ∧ applyGain (-2549) 5120 = -3186 := by decide +kernel

/-- Table 3-5: envelope and limiter factor of G2 over slots 7000 to 7003. -/
theorem test_limiter_over_four_slots :
    envelopeAfter 290000000 340000000 = 293125000 ∧ factorAfter 1024 3000 293125000 300000000 = 3000 ∧
    envelopeAfter 293125000 420000000 = 301054687 ∧ factorAfter 1024 3000 301054687 300000000 = 2906 ∧
    envelopeAfter 301054687 250000000 = 297863770 ∧ factorAfter 1024 2906 297863770 300000000 = 2906 ∧
    envelopeAfter 297863770 250000000 = 294872285 ∧ factorAfter 1024 2906 294872285 400000000 = 2952 := by decide +kernel

/-- Table 5-4: the gates of remotes a and c over the closes of 100 to 104 (open 1,000,000, close 250,000, hang 2). -/
theorem test_gates_over_five_closes :
    ([1600000, 360000, 200000, 10000, 490000].foldl (fun gs p => gs ++ [(gs.getLastD .default).update p 1000000 250000 2])
      ([] : List Gate)) = [⟨.opened, 0⟩, ⟨.opened, 0⟩, ⟨.hang, 2⟩, ⟨.hang, 1⟩, ⟨.opened, 0⟩] ∧
    ([1130000, 0, 180000, 0, 1060000].foldl (fun gs p => gs ++ [(gs.getLastD .default).update p 1000000 250000 2])
      ([] : List Gate)) = [⟨.opened, 0⟩, ⟨.hang, 2⟩, ⟨.hang, 1⟩, ⟨.closed, 0⟩, ⟨.opened, 0⟩] := by decide +kernel

/-- Close of 102 in Table 5-4: U of (20700, 15100) under gain 8192. -/
theorem test_uplink_saturates : saturate (applyGain 20700 8192) = 32767 ∧ saturate (applyGain 15100 8192) = 30200 := by
  decide +kernel

/-- Section 7.7: levelling, and the phase and first two samples of Table 7-2. -/
theorem test_levelling_and_synthesis :
    levelValue 12800 8192 = 1600 ∧ levelValue (-9472) 5000 = -723 ∧ levelValue 30000 8192 = 2047 ∧
    (synthBlock 0 100 ⟨12, 2048, 32, 4096⟩).get 0 = ⟨16284, 1806⟩ ∧ (synthBlock 0 100 ⟨12, 2048, 32, 4096⟩).get 1 = ⟨15963, 3688⟩ ∧
    phaseAt 0 100 12 23 = 28800 ∧ phaseAt 57600 100 12 23 = 20864 := by decide +kernel

/-! ### States for the witnesses -/

/-- The hub after reset with port A UP and ACTIVE: a hub that takes requests. -/
def awake : State :=
  { State.reset with
    tif := { TrunkSide.default with a := { TrunkPort.default with link := .up, goodRun := 16, role := .active }, settled := some .a }
    fps := { Pacer.default with ref := .locked } }

theorem awake_hears : awake.hears .a 1 := ⟨rfl, by decide, rfl⟩

/-- Group 0 a CHAIN of two remotes. -/
def chain : GroupConfig := { GroupConfig.default with form := .chain, remotes := 2 }

/-- The awake hub with G0 configured as a CHAIN of two remotes. -/
def served : State :=
  { awake with
    lal := awake.lal.put 0 (.empty chain)
    sif := { awake.sif with remotes := awake.sif.remotes.put 0 (setUpRemotes chain) } }

/-- A carrier of the given state and destination with one placement in G0. -/
def carrierIn (st : CarrierState) (dst : Option TrunkLane) (pl : Option PlacementState) : Carrier :=
  ⟨st, { CarrierFields.default with ulDest := dst }, (Table.fill none).put 0 (some ⟨pl, 4096⟩)⟩

/-- The served hub with a record for C0. -/
def withC0 (r : Carrier) : State := { served with ctb := served.ctb.put 0 r }

/-- The served hub with records for C0 and C1. -/
def withC01 (r q : Carrier) : State := { served with ctb := (served.ctb.put 0 r).put 1 q }

/-- The served hub with the given record for span port 0. -/
def withSpan (x : SpanPort) : State := { served with sif := { served.sif with ports := served.sif.ports.put 0 x } }

/-- The served hub with the given context for (G0, 1, A). -/
def withContext (c : Context) : State :=
  { served with sif := { served.sif with remotes := served.sif.remotes.edit 0 fun t => t.edit 0 fun r => { r with ctxA := c } } }

/-- A TRACKING context with the given miss run, expecting count 7 and echo 100. -/
def tracking (run : Nat) : Context := ⟨.tracking, none, 7, 100, run, 0, 0, 0, 0⟩

/-- A header without START. -/
def header (echo : FrameNo) (count : BitVec 8) : SectionHeader := ⟨echo, count, 1, false, 0, 0⟩

/-- The span side with the given context and one open slot. -/
def spansWith (c : Context) (slot : FrameNo) : Spans := { (withContext c).spans with window := [⟨slot, []⟩] }

/-- An announcement request of tag `t` and priority 5 in zone G0. -/
def request (t : Nat) : AnnRequest := ⟨t, .live, 5, 0, 0, 1, .all, 0⟩

/-- The awake hub with requests of tags 1 to `n` queued. -/
def queued (n : Nat) : State := { awake with bku := { awake.bku with queue := (List.range n).map fun k => request (k + 1) } }

/-- The awake hub with BP0 holding the request of tag 1. -/
def playing (st : PlayerState) (i : Option Intent) (fade gap miss : Nat) : State :=
  { awake with bku := { awake.bku with bp0 :=
    { Player.default with state := st, request := some (request 1), intent := i, fade := fade, gapLeft := gap, liveMiss := miss } } }

/-- The awake hub with another store. -/
def withStore (t : Store) : State := { awake with ast := t }

/-- A load of page `p` with every sample -1. -/
def load (p : PageId) : PageLoad := ⟨p, blankPage⟩

/-- The store as delivered with block 0 changed. -/
def storeWith (b : StoreBlock) : Store := { Store.default with blocks := Store.default.blocks.put 0 b }

/-- The law of the held requests, shown player by player. -/
theorem breakInOk_of (s : State) (h1 : s.bku.held.length ≤ 16) (h2 : (s.bku.held.map (·.tag)).Nodup)
    (h3 : s.bku.queue.Pairwise (fun a b => b.priority ≤ a.priority))
    (h4 : (s.bku.bp0.request = none ↔ s.bku.bp0.state = .idle) ∧ (s.bku.bp0.intent.isSome ↔ s.bku.bp0.state = .fadeOut) ∧
      (s.bku.bp0.running = true → ∀ r, s.bku.bp0.request = some r → s.ict.row.announceMask ≤ r.priority))
    (h5 : (s.bku.bp1.request = none ↔ s.bku.bp1.state = .idle) ∧ (s.bku.bp1.intent.isSome ↔ s.bku.bp1.state = .fadeOut) ∧
      (s.bku.bp1.running = true → ∀ r, s.bku.bp1.request = some r → s.ict.row.announceMask ≤ r.priority))
    (h6 : s.bku.bp0.zones &&& s.bku.bp1.zones = 0) (h7 : s.held = false) : s.breakInOk :=
  ⟨h1, h2, h3, fun id => by
    cases id
    · exact h4
    · exact h5, h6, fun h => by rw [h7] at h; cases h⟩

/-- The current row of the awake hub masks nothing. -/
theorem awake_mask : awake.ict.row.announceMask = 0 := by decide +kernel

theorem queued_ok (n : Nat) (h : n ≤ 16) : (queued n).breakInOk := by
  have hz : ∀ id, (queued n).bku.player id = .default := fun id => by cases id <;> rfl
  have hp : ∀ P : Player, P = .default → (P.request = none ↔ P.state = .idle) ∧ (P.intent.isSome ↔ P.state = .fadeOut) ∧
      (P.running = true → ∀ r, P.request = some r → (queued n).ict.row.announceMask ≤ r.priority) := fun P e => by
    subst e; simp [Player.default, Player.running]
  refine breakInOk_of _ ?_ ?_ ?_ (hp _ (hz .bp0)) (hp _ (hz .bp1))
    (by rw [show (queued n).bku.bp0 = .default from rfl, show (queued n).bku.bp1 = .default from rfl]; decide) rfl
  · simpa [BreakIn.held, queued, awake, State.reset, BreakIn.empty, Player.default] using h
  · simp [BreakIn.held, queued, awake, State.reset, BreakIn.empty, Player.default, Function.comp_def, request]
    exact List.Nodup.map (fun a b e => by omega) List.nodup_range
  · simp only [queued, request, List.pairwise_map]
    exact List.pairwise_of_forall fun _ _ => Nat.le_refl _

theorem playing_ok (st : PlayerState) (i : Option Intent) (fade gap miss : Nat) (h1 : st ≠ .idle)
    (h2 : i.isSome ↔ st = .fadeOut) : (playing st i fade gap miss).breakInOk := by
  refine breakInOk_of _ (by simp [BreakIn.held, playing, awake, State.reset, BreakIn.empty, Player.default])
    (by simp [BreakIn.held, playing, awake, State.reset, BreakIn.empty, Player.default]) ?_ ?_ ?_ ?_ rfl
  · exact List.Pairwise.nil
  · refine ⟨by simp [playing, h1], by simpa [playing] using h2, fun _ r _ => ?_⟩
    exact (Nat.le_of_eq awake_mask).trans (Nat.zero_le _)
  · have : (playing st i fade gap miss).bku.bp1 = .default := rfl
    rw [this]; simp [Player.default, Player.running]
  · have : (playing st i fade gap miss).bku.bp1.zones = 0 := rfl
    rw [this]; exact BitVec.and_zero

/-! ### Witnesses: every statement's hypotheses can be met -/

theorem witness_StepTakesTheFrontCommand :
    ({ awake with pending := [.incclr .a 1] } : State).pending = .incclr .a 1 :: [] ∧ awake.pending = [] := ⟨rfl, rfl⟩

theorem witness_HeldHubIgnoresCommands :
    (powerOn awake).held = true ∧ actsOnHeldHub (.incclr .a 1) = false := by decide +kernel

/-- The awake hub with port A's frame of slot 0 sent without a notice, and a notice queued since. -/
def noticing : State :=
  { awake with
    tif := { awake.tif with outA := some ⟨0, ⟨.locked, some .a, 0, 1, false⟩, none, none, .fill (.fill ⟨0, 0⟩)⟩ }
    mga := { awake.mga with queue := [⟨.referenceState .locked, 1⟩] } }

theorem witness_RequestsRefusedBeforeTheirKind :
    asRequest (.incclr .a 0) = some (.a, 0, 10) ∧ awake.held = false ∧
    asRequest (.incclr .b 1) = some (.b, 1, 10) ∧ (1 : Nat) ≠ 0 ∧ (10 : Nat) ≠ 1 ∧ awake.tif.settled ≠ some .b ∧
    noticing.tif.settled = some .a ∧ (noticing.tif.out .a).map (·.notice) = some none ∧ noticing.mga.queue ≠ [] ∧
    (awake.tif.out .a).map (·.notice) ≠ some none := by decide

theorem witness_ReadAnswersAPartAndChangesNothing :
    awake.held = false ∧ (1 : Nat) ≠ 0 ∧ awake.record (.carrier 64) = .refused .range ∧
    awake.record .settingsState = .record [0, 0] ∧ 0 < max 1 (([0, 0] : List Byte).length + 40) / 41 ∧
    max 1 ((([0, 0] : List Byte).length + 40) / 41) ≤ 1 ∧
    codeTrunk 0 = some .a ∧ codeTrunk 1 = some .b ∧ codePlayer 0 = some .bp0 ∧ codePlayer 1 = some .bp1 ∧
    (awake.ctb.get 0).state = .free ∧ ((withC0 (carrierIn .active none (some .shed))).ctb.get 0).state ≠ .free ∧
    ((withC0 (carrierIn .active none (some .shed))).ctb.get 0).placements.get 0 = some ⟨some .shed, 4096⟩ ∧
    ((withC0 (carrierIn .active none (some .shed))).ctb.get 0).placements.get 1 = none ∧
    (queued 16).bku.queue[15]? = some (request 16) ∧ (queued 15).bku.queue[15]? = none ∧ (15 : Nat) ≤ 15 ∧ 15 < (16 : Nat) ∧
    511 + 1 ≤ (512 : Nat) ∧ 480 + 32 ≤ (512 : Nat) ∧ (512 : Nat) < 511 + 2 ∧ (2 : Nat) ≤ 2 ∧ (4 : Nat) ≤ 4 ∧ (8 : Nat) ≤ 8 ∧
    6 < (7 : Nat) ∧ (32 : Nat) ≤ 32 ∧ (48 : Nat) ≤ 48 ∧ (64 : Nat) ≤ 64 ∧ (2048 : Nat) ≤ 2048 := by decide +kernel

theorem witness_CarsetWritesTheRecord :
    awake.hears .a 1 ∧ (63 : Nat) = (63 : CarrierId).val ∧ codeKind 2 = some .broadcast ∧ codeTalk 0 = some .off ∧
    codeBool 1 = some true ∧ codeBool 0 = some false ∧ codeTrunkLane 47 = some (some 47) ∧ codeTrunkLane 255 = some none ∧
    (4095 : Nat) ≤ 4095 ∧ (awake.ctb.get 63).state ≠ .active ∧
    (64 : Nat) ≤ 64 ∧ codeKind 3 = none ∧ codeTalk 3 = none ∧ codeBool 2 = none ∧ codeTrunkLane 48 = none ∧ 4095 < (4096 : Nat) ∧
    codeTrunkLane 0 ≠ some none := ⟨awake_hears, by decide +kernel⟩

/-- The arguments of a CARSET that repeats the structural fields of `carrierIn`, and of one with another kind. -/
def repeatArgs (kind : Nat) : CarsetArgs := ⟨0, kind, 0, 255, 255, 1, 4096, 4096, 0, 0, 0, 0, 0, 4096, 0, 0⟩

theorem witness_CarsetOnActiveCarrierKeepsStructure :
    let s := withC0 (carrierIn .active none (some .shed))
    s.hears .a 1 ∧ (repeatArgs 0).carrier = (0 : CarrierId).val ∧
    carsetNamed (repeatArgs 0) = some ⟨.mobile, none, none, .off, false, false⟩ ∧
    carsetNamed (repeatArgs 1) = some ⟨.rescue, none, none, .off, false, false⟩ ∧ (s.ctb.get 0).state = .active ∧
    (s.ctb.get 0).fields.kind = .mobile ∧ (s.ctb.get 0).fields.rfCode = 0 ∧ (s.ctb.get 0).fields.dlSource = none ∧
    (s.ctb.get 0).fields.ulDest = none ∧
    ∀ g : GroupId, (repeatArgs 0).groups.testBit g.val = ((s.ctb.get 0).placements.get g).isSome :=
  ⟨⟨rfl, by decide, rfl⟩, by decide +kernel⟩

theorem witness_CaronActivatesTheCarrier :
    (served.hears .a 1 ∧ (64 : Nat) ≤ 64 ∧ (served.ctb.get 0).state ≠ .defined) ∧
    (let s := withC0 ⟨.defined, .default, .fill none⟩
     s.hears .a 1 ∧ (s.ctb.get 0).state = .defined ∧ ¬∃ g : GroupId, ((s.ctb.get 0).placements.get g).isSome) ∧
    (let s : State := { awake with ctb := awake.ctb.put 0 (carrierIn .defined none none) }
     s.hears .a 1 ∧ ((s.ctb.get 0).placements.get 0).isSome ∧ (configOf s.lal 0).form = .unused) ∧
    (let s := withC01 (carrierIn .defined (some 5) none) (carrierIn .active (some 5) (some .shed))
     s.hears .a 1 ∧ (s.ctb.get 1).state = .active ∧ (s.ctb.get 1).fields.ulDest = (s.ctb.get 0).fields.ulDest ∧
     (s.ctb.get 0).fields.ulDest.isSome) ∧
    (let s := withC01 (carrierIn .defined (some 5) none) (carrierIn .active (some 6) (some .shed))
     s.hears .a 1 ∧ (s.ctb.get 0).state = .defined ∧ (∃ g : GroupId, ((s.ctb.get 0).placements.get g).isSome) ∧
     (∀ g : GroupId, ((s.ctb.get 0).placements.get g).isSome → (configOf s.lal g).form ≠ .unused) ∧
     ∀ d : CarrierId, d ≠ 0 → (s.ctb.get d).state = .active → (s.ctb.get 0).fields.ulDest.isSome →
       (s.ctb.get d).fields.ulDest ≠ (s.ctb.get 0).fields.ulDest) :=
  ⟨⟨⟨rfl, by decide, rfl⟩, by decide +kernel⟩, ⟨⟨rfl, by decide, rfl⟩, by decide +kernel⟩, ⟨⟨rfl, by decide, rfl⟩, by decide +kernel⟩,
   ⟨⟨rfl, by decide, rfl⟩, by decide +kernel⟩, ⟨⟨rfl, by decide, rfl⟩, by decide +kernel⟩⟩

/-- The lanes of the served hub are all FREE and nothing waits. -/
theorem served_group (g : GroupId) : (served.lal.get g).waiting = [] ∧ ∀ l : LaneId, (served.lal.get g).lanes.get l = .default := by
  by_cases h : (0 : GroupId) = g
  · subst h; simp [served, Group.empty]
  · simp [served, awake, State.reset, h, Group.empty]

/-- Lanes of G0 all LIVE and owned by MOBILE carriers of rank 0, and a carrier 40 that is as given. -/
def crowded (kind : CarrierKind) : Alloc :=
  { served.alloc with
    ctb := served.alloc.ctb.put 40 { Carrier.default with fields := { CarrierFields.default with kind := kind } }
    lal := served.alloc.lal.edit 0 fun x => { x with lanes := .make fun l => ⟨.live, some (Fin.ofNat 64 l.val), 0, none⟩ } }

theorem witness_CaronActivatesTheCarrierArbiter :
    ((served.alloc.lane 0 0).state = .free ∧ ∀ m : LaneId, m < 0 → (served.alloc.lane 0 m).state ≠ .free) ∧
    (∀ l : LaneId, ((crowded .rescue).lane 0 l).state ≠ .free) ∧
    ((crowded .rescue).ctb.get 40).fields.kind = .rescue ∧
    (((crowded .broadcast).ctb.get 40).fields.kind = .broadcast ∧ (defaultProfile.get 3).broadcastPreempt = true ∧
      (defaultProfile.get 2).broadcastPreempt = false) ∧
    ((crowded .mobile).ctb.get 40).fields.kind = .mobile ∧
    (((crowded .rescue).lane 0 31).state ≠ .free ∧ ((crowded .rescue).lane 0 31).owner = some 31 ∧
      ((crowded .rescue).ctb.get 31).fields.kind = .mobile ∧ (∀ w : CarrierId, ((crowded .rescue).ctb.get w).fields.rank = 0) ∧
      ∀ m : LaneId, m ≤ 31) ∧
    ∀ l : LaneId, (served.alloc.lane 0 l).state = .free := by decide +kernel

/-- The served hub with C0 ACTIVE and its placement in G0 as given, a lane or a list entry with it. -/
def placed (pl : PlacementState) : State :=
  { withC0 (carrierIn .active none (some pl)) with
    lal := served.lal.edit 0 fun x => { x with
      lanes := if pl = .held then x.lanes.put 0 ⟨.live, some 0, 0, none⟩ else x.lanes
      waiting := if pl = .waiting then [0] else [] } }

/-- A hub with one placement, whatever its state. -/
theorem placed_ok (pl : PlacementState) : (placed pl).placementsOk := by
  have hp : ∀ (c : CarrierId) (g : GroupId), (placed pl).alloc.placementState c g = if 0 = c ∧ 0 = g then some pl else none := by
    intro c g
    by_cases h : (0 : CarrierId) = c
    · subst h
      by_cases h' : (0 : GroupId) = g
      · subst h'; simp [Alloc.placementState, State.alloc, placed, withC0, carrierIn]
      · simp [Alloc.placementState, State.alloc, placed, withC0, carrierIn, h']
    · simp [Alloc.placementState, State.alloc, placed, withC0, h, served, awake, State.reset, Carrier.default]
  have hl : ∀ (g : GroupId) (l : LaneId), (placed pl).alloc.lane g l =
      if pl = .held ∧ 0 = g ∧ 0 = l then ⟨.live, some 0, 0, none⟩ else .default := by
    intro g l
    have := (served_group g).2 l
    by_cases h : (0 : GroupId) = g
    · subst h
      by_cases hh : pl = .held
      · by_cases h' : (0 : LaneId) = l
        · subst h'; simp [Alloc.lane, State.alloc, placed, hh]
        · simp [Alloc.lane, State.alloc, placed, hh, h', this]
      · simp [Alloc.lane, State.alloc, placed, hh, this]
    · simp [Alloc.lane, State.alloc, placed, h, this]
  have hw : ∀ g : GroupId, (placed pl).alloc.waiting g = if pl = .waiting ∧ 0 = g then [0] else [] := by
    intro g
    have := (served_group g).1
    by_cases h : (0 : GroupId) = g
    · subst h; simp [Alloc.waiting, State.alloc, placed]
    · simp [Alloc.waiting, State.alloc, placed, h, this]
  have ha : ∀ c : CarrierId, ((placed pl).ctb.get c).state = .active → 0 = c := by
    intro c h
    by_contra e
    simp [placed, withC0, e, served, awake, State.reset, Carrier.default] at h
  have hs : ((placed pl).ctb.get 0).state = .active := by simp [placed, withC0, carrierIn]
  refine ⟨fun c g => ?_, fun c g => ?_, fun c g h => ?_, fun c g h hg => ?_, fun g l m h e => ?_, fun g l => ?_, fun g => ?_⟩
  · rw [hp]; simp only [hl]
    constructor
    · intro h
      split at h
      · rename_i e; cases h; exact ⟨0, by simp [e]⟩
      · cases h
    · rintro ⟨l, h⟩
      split at h
      · rename_i e; cases h; simp [e]
      · cases h
  · have e : (0 : CarrierId) = c ↔ c = 0 := eq_comm
    simp only [hp, hw, e]
    by_cases h1 : pl = .waiting <;> by_cases h2 : (0 : GroupId) = g <;> by_cases h3 : c = 0 <;> simp [h1, h2, h3]
  · rw [hp, if_neg]; rintro ⟨rfl, -⟩; exact h hs
  · rw [hp]
    have e := ha c h
    subst e
    by_cases h' : (0 : GroupId) = g
    · simp [h']
    · simp [placed, withC0, carrierIn, h'] at hg
  · rw [hl, hl] at e; rw [hl] at h
    split at h
    · rename_i a; rw [if_pos a] at e
      split at e
      · rename_i b; exact a.2.2.symm.trans b.2.2
      · cases e
    · cases h
  · rw [hl]; split <;> simp [Lane.default]
  · rw [hw]; split <;> simp

theorem witness_CaroffReleasesTheCarrier :
    (∀ pl : PlacementState, (placed pl).hears .a 1 ∧ (placed pl).placementsOk ∧
      ((placed pl).alloc.placementState 0 0 = some pl) ∧ ((placed pl).ctb.get 0).state = .active ∧
      ((placed pl).ctb.get 1).state ≠ .active) ∧ (64 : Nat) ≤ 64 :=
  ⟨fun pl => ⟨⟨rfl, by decide, rfl⟩, placed_ok pl, by cases pl <;> decide +kernel⟩, Nat.le_refl _⟩

theorem witness_CarclrAndTrimActOnOneRecord : awake.hears .a 1 ∧ (64 : Nat) ≤ 64 ∧ (8 : Nat) ≤ 8 := ⟨awake_hears, by decide⟩

/-- No group of the served hub is a RING. -/
theorem served_forms : formsAgree fun g => (configOf served.lal g).form := by unfold formsAgree; decide +kernel

/-- The awake hub with G0 configured in the given form. -/
def formed (form : GroupForm) : State := { awake with lal := awake.lal.put 0 (.empty { GroupConfig.default with form := form }) }

theorem witness_GrpsetTunesABusyGroup :
    let a : GrpsetArgs := ⟨0, 1, 2, 0, 5000, 0, 0⟩
    served.hears .a 1 ∧ a.group = (0 : GroupId).val ∧ (formsAgree fun g => (configOf served.lal g).form) ∧
    codeForm a.form = some (configOf served.lal 0).form ∧ a.remotes = (configOf served.lal 0).remotes ∧ 1 ≤ a.remotes ∧
    a.remotes ≤ 6 ∧ (8 : Nat) ≤ 8 ∧ codeForm 3 = none ∧ (6 : Nat) < 7 ∧ codeForm 2 = some .ring ∧ (7 : GroupId).val % 2 = 1 ∧
    (let s : State := { awake with lal := awake.lal.put 7 (.empty chain) }
     s.hears .a 1 ∧ (6 : GroupId).val % 2 = 0 ∧ (7 : GroupId).val = (6 : GroupId).val + 1 ∧ (configOf s.lal 7).form ≠ .unused) ∧
    (formed .ring).hears .a 1 ∧ codeForm 1 = some .chain ∧ (1 : GroupId).val % 2 = 1 ∧
    (0 : GroupId).val + 1 = (1 : GroupId).val ∧ (configOf (formed .ring).lal 0).form = .ring :=
  ⟨⟨rfl, by decide, rfl⟩, rfl, served_forms, by decide +kernel, by decide +kernel, by decide, by decide, by decide, by decide,
   by decide, by decide, by decide, ⟨⟨rfl, by decide, rfl⟩, by decide, by decide, by decide +kernel⟩, ⟨rfl, by decide, rfl⟩,
   by decide, by decide, by decide, by decide +kernel⟩

theorem witness_GrpsetSetsUpRemotesAnew :
    (let s := withC0 (carrierIn .active none (some .shed))
     s.hears .a 1 ∧ codeForm 1 = some .chain ∧ (6 : Nat) ≠ (configOf s.lal 0).remotes ∧ (s.ctb.get 0).state = .active ∧
     ((s.ctb.get 0).placements.get 0).isSome) ∧
    (awake.hears .a 1 ∧ codeForm 2 = some .ring ∧ (6 : GroupId).val % 2 = 0 ∧ (configOf awake.lal (groupAfter 6)).form = .unused ∧
     GroupForm.ring ≠ (configOf awake.lal 6).form) ∧
    (awake.hears .a 1 ∧ codeForm 1 = some .chain ∧ (7 : GroupId).val % 2 = 1 ∧ (configOf awake.lal (portBefore 7)).form ≠ .ring ∧
     GroupForm.chain ≠ (configOf awake.lal 7).form ∧
     ∀ c : CarrierId, (awake.ctb.get c).state = .active → ((awake.ctb.get c).placements.get 7) = none) :=
  ⟨⟨⟨rfl, by decide, rfl⟩, by decide +kernel⟩, ⟨awake_hears, by decide +kernel⟩, ⟨awake_hears, by decide +kernel⟩⟩

theorem witness_SprstResetsOnePort :
    served.hears .a 1 ∧ (8 : Nat) ≤ 8 ∧ servedBy served.lal 7 = none ∧ servedBy served.lal 0 = some (0, .a) :=
  ⟨⟨rfl, by decide, rfl⟩, by decide +kernel⟩

theorem witness_SpanFrameMovesTheLink :
    served.held = false ∧ servedBy served.lal 7 = none ∧ servedBy served.lal 0 = some (0, .a) ∧
    spanFrameGood [] = false ∧ spanFrameGood (withFrameCheck [0, 0]) = true ∧
    ((withSpan .default).sif.ports.get 0).link = .down ∧
    (let s := withSpan ⟨.aligning, 2, 0, false, 0, 0, 0, 0, 0, 0⟩
     (s.sif.ports.get 0).link = .aligning ∧ (s.sif.ports.get 0).goodRun < 3) ∧
    (let s := withSpan ⟨.aligning, 3, 0, false, 0, 0, 0, 0, 0, 0⟩
     (s.sif.ports.get 0).link = .aligning ∧ 3 ≤ (s.sif.ports.get 0).goodRun) ∧
    (let s := withSpan ⟨.up, 4, 6, false, 0, 0, 0, 0, 0, 0⟩
     (s.sif.ports.get 0).link = .up ∧ (s.sif.ports.get 0).badRun < 7) ∧
    (let s := withSpan ⟨.up, 4, 7, false, 0, 0, 0, 0, 0, 0⟩
     (s.sif.ports.get 0).link = .up ∧ 7 ≤ (s.sif.ports.get 0).badRun) := by decide +kernel

/-- The bytes of a section of echo 100 and count 7 with the given last header byte and blocks of zeros, its check appended. -/
def sectionOf (last : Byte) : List Byte := withCellCheck ([0, 100, 7, last] ++ List.replicate 3072 0)

theorem sectionOf_passes (last : Byte) : sectionCheckPasses (sectionOf last) = true :=
  sectionCheckPasses_withCellCheck _ (by rw [List.length_append, List.length_replicate]; rfl)

theorem witness_SectionWithoutStartIsStepped :
    sectionCheckPasses [] = false ∧ (∀ b, sectionCheckPasses (sectionOf b) = true) ∧
    (configOf served.lal 0).form = .chain ∧ (configOf served.lal 0).remotes = 2 ∧
    (sectionHeader (sectionOf 0x40)).position.toNat = (1 : Pos).val + 1 ∧ (sectionHeader (sectionOf 0x40)).radiator = 0 ∧
    (sectionHeader (sectionOf 0x41)).radiator = 1 ∧ (sectionHeader (sectionOf 0x42)).radiator = 2 ∧
    (sectionHeader (sectionOf 0x43)).radiator = 3 ∧ (sectionHeader (sectionOf 0x60)).position = 3 ∧
    (header 100 7).start = false ∧ ({ header 100 7 with start := true } : SectionHeader).start = true ∧
    ((spansWith .new 100).ctx 0 0 .a).state = .waiting ∧ (100 : FrameNo) ∈ openSlots (spansWith .new 100).window ∧
    (100 : FrameNo) ∉ openSlots (spansWith .new 99).window ∧ ((spansWith (tracking 1) 99).ctx 0 0 .a).state = .tracking ∧
    (let v := spansWith (tracking 0) 103
     let c := v.ctx 0 0 .a
     c.state = .tracking ∧ ((104 : FrameNo) - c.expEcho).toInt = 4 ∧ ((103 : FrameNo) - c.expEcho).toInt = 3 ∧
     (10 : BitVec 8) - c.expCount = BitVec.ofInt 8 3 ∧ -(c.missRun : Int) ≤ 3 ∧ (103 : FrameNo) ∈ openSlots v.window) ∧
    (let v := spansWith (tracking 0) 99
     let c := v.ctx 0 0 .a
     c.state = .tracking ∧ ((100 : FrameNo) - c.expEcho).toInt = 0 ∧ (7 : BitVec 8) - c.expCount = BitVec.ofInt 8 0 ∧
     (100 : FrameNo) ∉ openSlots v.window) ∧
    (let c := (spansWith (tracking 1) 99).ctx 0 0 .a
     ((99 : FrameNo) - c.expEcho).toInt = -1 ∧ (6 : BitVec 8) - c.expCount = BitVec.ofInt 8 (-1) ∧ -(c.missRun : Int) ≤ -1 ∧
     (99 : FrameNo) ∈ openSlots (spansWith (tracking 1) 99).window ∧ (99 : FrameNo) ∉ openSlots (spansWith (tracking 1) 98).window) :=
  ⟨by decide, sectionOf_passes, by decide +kernel⟩

theorem witness_MissLimitSilencesTheContext :
    served.held = false ∧ (((served.sif.remotes.get 0).get 0).ctx .a).state ≠ .tracking ∧
    (let s := withContext (tracking 62)
     (((s.sif.remotes.get 0).get 0).ctx .a).missRun + 1 < (configOf s.lal 0).missLimit) ∧
    (let s := withContext (tracking 63)
     s.held = false ∧ (((s.sif.remotes.get 0).get 0).ctx .a).state = .tracking ∧
     (configOf s.lal 0).missLimit ≤ (((s.sif.remotes.get 0).get 0).ctx .a).missRun + 1) ∧
    (configOf served.lal 0).form ≠ .unused ∧ (configOf served.lal 1).form = .unused := by decide +kernel

theorem witness_GuardAndHangExpire :
    let s : State := { served with
      lal := served.lal.edit 0 fun x => { x with lanes := x.lanes.put 3 ⟨.guard, some 0, 1, none⟩ }
      ucb := { served.ucb with gates := served.ucb.gates.edit 0 fun y => y.edit 3 fun z => z.put 0 ⟨.hang, 1⟩ } }
    s.held = false ∧ ((s.lal.get 0).lanes.get 3).state = .guard ∧ ((s.lal.get 0).lanes.get 3).guardCount ≤ 1 ∧
    (((s.ucb.gates.get 0).get 3).get 0).state = .hang ∧ (((s.ucb.gates.get 0).get 3).get 0).hang ≤ 1 := by decide +kernel

theorem witness_OverBudgetReportsOnce :
    let s : State := { served with
      lal := served.lal.edit 0 fun x => { x with config := { x.config with ceiling := 1999 } }
      dmx := served.dmx.put 0 ⟨1024, 2000, .over, 63, false, some ⟨9, 2000, 0, 0, 1999⟩⟩ }
    let x := s.dmx.get 0
    s.held = false ∧ (configOf s.lal 0).form ≠ .unused ∧ x.episode = .over ∧ 63 ≤ x.run ∧
    (configOf s.lal 0).ceiling * (4 - derating (s.sif.remotes.get 0)) / 4 < x.envelope ∧ x.factor = (configOf s.lal 0).floor := by
  decide +kernel

/-- Inputs of the mixer with lane 3 of G0 LIVE, owned by RESCUE carrier C0 and under BP0. -/
def rescueMix : MixInput :=
  let s := withC0 { carrierIn .active none (some .held) with fields := { CarrierFields.default with kind := .rescue } }
  ⟨0, s, s.lal.edit 0 fun x => { x with lanes := x.lanes.put 3 ⟨.live, some 0, 0, some .bp0⟩ }, none, none, none⟩

/-- A close of slot 9 with lane 3 of G0 LIVE and owned by C0, whose destination is T5, and remote 1 of the two in service. -/
def closing : CloseInput :=
  let s := withC0 (carrierIn .active (some 5) (some .held))
  { hfn := 9
    ctb := s.ctb
    lanes := s.lal.edit 0 fun x => { x with lanes := x.lanes.put 3 ⟨.live, some 0, 0, none⟩ }
    remotes := s.sif.remotes.edit 0 fun t => t.edit 0 fun r => { r with inService := true }
    window := [⟨9, [⟨0, 0, .a, .fill (.fill ⟨1, 0⟩)⟩]⟩] }

theorem witness_LimiterUpdateFollowsItsRules :
    let m : Table MixedLane 32 := .fill .silent
    let x : Limiter := { Limiter.default with envelope := 1600 }
    let at_ := fun ceiling => (x.update 0 0 { GroupConfig.default with ceiling := ceiling } m 3).1.envelope
    GroupConfig.default.floor ≤ x.factor ∧ x.factor ≤ 4096 ∧ GroupConfig.default.floor ≤ 4096 ∧
    5996 * (4 - 3) / 4 < at_ 5996 ∧ (at_ 6000 ≤ 6000 * (4 - 3) / 4 ∧ 6000 * (4 - 3) / 4 - 6000 * (4 - 3) / 4 / 8 ≤ at_ 6000) ∧
    at_ 8000 < 8000 * (4 - 3) / 4 - 8000 * (4 - 3) / 4 / 8 ∧
    (let cfg := { GroupConfig.default with ceiling := 5996 }
     let pinned := fun (e : Episode) (run : Nat) => (⟨1024, 1600, e, run, false, none⟩ : Limiter)
     (∀ e ∈ [Episode.quiet, .over, .reported], ∀ run ∈ [0, 62, 63, 64], 5996 * (4 - 3) / 4 < ((pinned e run).update 0 0 cfg m 3).1.envelope ∧
       ((pinned e run).update 0 0 cfg m 3).1.factor = cfg.floor) ∧
     (x.update 0 0 cfg m 3).1.factor ≠ cfg.floor) ∧
    (let r : Remote := { (setUpRemotes chain).get 0 with inService := true, headroom := some 3, radiator := some .ok }
     r.inService = true ∧ r.radiator ≠ some .paOff ∧ r.headroom = some 3) := by decide +kernel

theorem witness_LimiterNeverTouchesProtectedLanes :
    let i := rescueMix
    ((i.lanes.get 0).lanes.get 3).owner = some 0 ∧ (i.pre.ctb.get 0).fields.kind = .rescue ∧
    ((i.lanes.get 0).lanes.get 3).player.isSome ∧
    ({ i.pre with ict := { i.pre.ict with commanded := 2 } } : State).ict.row.protectBreakIn = true ∧
    ((i.lanes.get 0).lanes.get 3).state = .live ∧ ((i.lanes.get 0).lanes.get 4).state ≠ .live := by decide +kernel

theorem witness_GateMovesByItsTable :
    (250 : Nat) ≤ 1000 ∧ (1000 : Nat) ≤ 1000 ∧ ((250 : Nat) ≤ 250 ∧ (250 : Nat) < 1000) ∧ (249 : Nat) < 250 ∧
    Gate.default.state = .closed ∧ (⟨.opened, 0⟩ : Gate).state = .opened ∧ (⟨.hang, 1⟩ : Gate).state = .hang ∧
    (let i := closing
     let owns := fun (c : CarrierId) (g : GroupId) (l : LaneId) =>
       ((i.lanes.get g).lanes.get l).state == .live && ((i.lanes.get g).lanes.get l).owner == some c
     let dest := fun c : CarrierId => (i.ctb.get c).fields.ulDest
     let configured := fun (g : GroupId) (k : Pos) =>
       (i.lanes.get g).config.form != .unused && decide (k.val < (i.lanes.get g).config.remotes)
     owns 0 0 3 = true ∧ (dest 0).isSome ∧ configured 0 0 = true ∧ configured 0 1 = true ∧
     ((i.remotes.get 0).get 0).inService = true ∧ ((i.remotes.get 0).get 1).inService = false ∧ configured 0 2 = false ∧
     (∀ c : CarrierId, owns c 0 4 = false) ∧ (∀ (g : GroupId) (l m : LaneId), owns 0 g l = true → owns 0 g m = true → l = m) ∧
     (∀ (g : GroupId) (l : LaneId), owns 1 g l = false) ∧
     (i.ctb.get 0).state = .active ∧ dest 0 = some 5 ∧ (∀ c : CarrierId, c ≠ 0 → (i.ctb.get c).state ≠ .active) ∧
     ∀ c : CarrierId, dest c ≠ some 6) := by decide +kernel

theorem witness_TrunkFrameJoinsTheFifoOrSlips : awake.held = false := rfl

theorem witness_ConsumptionJudgesTheOldestFrame :
    (TrunkPort.default.fifo = [] ∧ TrunkPort.default.consume.2 = none) ∧
    (let x : TrunkPort := { TrunkPort.default with fifo := [[]] }
     x.fifo.head? = some [] ∧ trunkFrameGood [] = false) ∧
    (let f := withFrameCheck (List.replicate 4660 0)
     let x : TrunkPort := { TrunkPort.default with fifo := [f], link := .acquiring, goodRun := 15 }
     x.fifo.head? = some f ∧ trunkFrameGood f = true ∧ x.lastTfn = none ∧ x.link = .acquiring ∧ 15 ≤ x.goodRun) ∧
    (let x : TrunkPort := { TrunkPort.default with link := .up, badRun := 7 }
     x.consume.2 = none ∧ x.link = .up ∧ 7 ≤ x.badRun) ∧
    (let x : TrunkPort := { TrunkPort.default with link := .up, badRun := 6 }
     x.consume.2 = none ∧ x.link = .up ∧ x.badRun < 7) :=
  ⟨by decide, by decide, ⟨rfl, trunkFrameGood_withFrameCheck _ (List.length_replicate ..), rfl, rfl, by decide⟩, by decide, by decide⟩

theorem witness_SettlementIsNonRevertive :
    let up : TrunkPort := { TrunkPort.default with link := .up }
    let t : TrunkSide := { TrunkSide.default with a := up, b := { up with role := .active } }
    let l : TrunkSide := { TrunkSide.default with a := up, b := { TrunkPort.default with role := .active } }
    ¬(t.a.role = .active ∧ t.b.role = .active) ∧ (t.port .b).role = .active ∧ (t.port .b).link = .up ∧
    (l.port .b).role = .active ∧ (l.port .b).link ≠ .up ∧ (l.port .a).link = .up ∧
    TrunkSide.default.a.role ≠ .active ∧ TrunkSide.default.b.role ≠ .active := by decide

theorem witness_HoldoverExpiresToFreeRun :
    let s : State := { awake with fps := { awake.fps with ref := .holdover, holdCount := 4799999 } }
    s.held = false ∧ s.fps.ref = .holdover ∧ s.fps.holdLimit ≤ s.fps.holdCount + 1 := by decide

theorem witness_TrkselMovesTheActiveRole :
    awake.hears .a 1 ∧ (2 : Nat) ≤ 2 ∧ codeTrunk 1 = some .b ∧ (awake.tif.port .b).link ≠ .up ∧ codeTrunk 0 = some .a ∧
    (awake.tif.port .a).link = .up ∧ (awake.tif.port .a).role = .active ∧
    (let s : State := { awake with tif := { awake.tif with b := { TrunkPort.default with link := .up, role := .standby } } }
     s.hears .a 1 ∧ (s.tif.port .b).link = .up ∧ (s.tif.port .b).role ≠ .active) :=
  ⟨awake_hears, by decide, by decide, by decide, by decide, by decide, by decide, ⟨rfl, by decide, rfl⟩, by decide⟩

theorem witness_TimsetAndVoxsetStoreTheirValues : awake.hears .a 1 := awake_hears

theorem witness_AnncHoldsTheRequest :
    let a : AnncArgs := ⟨17, 255, 15, 0, 0, 1, 1, 0⟩
    (queued 16).hears .a 1 ∧ (queued 16).breakInOk ∧ (queued 15).hears .a 1 ∧ (queued 15).breakInOk ∧ a.tag ≠ 0 ∧
    codeMessage a.message = some .live ∧ codeMessage 47 = some (.stored 47) ∧ codeMessage 48 = none ∧
    BitVec.ofNat 8 a.zones ≠ 0 ∧ BitVec.ofNat 8 0 = 0 ∧ a.setForm = 1 ∧ BitVec.ofNat 64 0 = 0 ∧ BitVec.ofNat 64 (2 ^ 63) ≠ 0 ∧
    (2 : Nat) ≤ 2 ∧
    (∃ r ∈ (queued 15).bku.held, r.tag = 15) ∧ (∀ r ∈ (queued 16).bku.held, r.tag ≠ a.tag) ∧
    (∀ r ∈ (queued 15).bku.held, r.tag ≠ a.tag) ∧ awake.ast.ready .live = true ∧ awake.ast.ready (.stored 47) = false ∧
    (queued 16).bku.held.length = 16 ∧ (queued 15).bku.held.length < 16 ∧
    (request 1).priority < 6 ∧ 5 ≤ (request 1).priority ∧ (request 1).zones &&& 2 = 0 ∧ (request 1).zones &&& 1 ≠ 0 ∧
    awake.bku.bp0.state = .idle ∧
    (let u := (playing .playing none 4096 0 0).bku
     u.bp0.state ≠ .idle ∧ u.bp1.state = .idle ∧ ({ u with bp1 := u.bp0 } : BreakIn).bp1.state ≠ .idle) :=
  ⟨⟨rfl, by decide, rfl⟩, queued_ok 16 (by decide), ⟨rfl, by decide, rfl⟩, queued_ok 15 (by decide), by decide +kernel⟩

theorem witness_AncanCancelsTheRequest :
    (queued 1).hears .a 1 ∧ (queued 1).breakInOk ∧ request 1 ∈ (queued 1).bku.queue ∧ (request 1).tag = 1 ∧ (1 : Nat) ≠ 0 ∧
    (∀ r ∈ (queued 1).bku.held, r.tag ≠ 2) ∧
    (let s := playing .playing none 4096 0 0
     s.hears .a 1 ∧ s.breakInOk ∧ (s.bku.player .bp0).request = some (request 1)) :=
  ⟨⟨rfl, by decide, rfl⟩, queued_ok 1 (by decide), by decide +kernel, rfl, by decide, by decide +kernel,
   ⟨rfl, by decide, rfl⟩, playing_ok _ _ _ _ _ (by decide) (by decide), rfl⟩

theorem witness_FadeEndCarriesOutTheIntent :
    (let s := playing .fadeIn none 4064 0 0
     s.held = false ∧ s.breakInOk ∧ (s.bku.player .bp0).state = .fadeIn ∧
     4096 ≤ (s.bku.player .bp0).fade + s.bku.params.fadeStep) ∧
    (let s := playing .fadeOut (some (.finish .completed)) 32 0 0
     s.held = false ∧ s.breakInOk ∧ (s.bku.player .bp0).state = .fadeOut ∧
     (s.bku.player .bp0).fade ≤ s.bku.params.fadeStep ∧ (s.bku.player .bp0).request = some (request 1) ∧
     (s.bku.player .bp0).intent = some (.finish .completed)) ∧
    (let s := playing .fadeOut (some .requeue) 0 0 0
     s.held = false ∧ s.breakInOk ∧ (s.bku.player .bp0).fade ≤ s.bku.params.fadeStep ∧
     (s.bku.player .bp0).request = some (request 1) ∧ (s.bku.player .bp0).intent = some .requeue) ∧
    (let s := playing .fadeIn none 4063 0 0
     s.held = false ∧ (s.bku.player .bp0).fade + s.bku.params.fadeStep < 4096 ∧ (s.bku.player .bp0).state ≠ .fadeOut) ∧
    (let s := playing .fadeOut (some .requeue) 33 0 0
     s.held = false ∧ s.bku.params.fadeStep < (s.bku.player .bp0).fade ∧ (s.bku.player .bp0).state ≠ .fadeIn) :=
  ⟨⟨rfl, playing_ok _ _ _ _ _ (by decide) (by decide), by decide +kernel⟩,
   ⟨rfl, playing_ok _ _ _ _ _ (by decide) (by decide), by decide +kernel⟩,
   ⟨rfl, playing_ok _ _ _ _ _ (by decide) (by decide), by decide +kernel⟩, by decide +kernel, by decide +kernel⟩

/-- An ACTIVE BROADCAST carrier that announcements may cover. -/
def covered : Carrier := { carrierIn .active none (some .held) with fields := { CarrierFields.default with kind := .broadcast, eligible := true } }

theorem witness_GapEndAndSpeechLossMoveThePlayer :
    (let s := playing .gap none 4096 1 0
     s.held = false ∧ (s.bku.player .bp0).state = .gap ∧ (s.bku.player .bp0).gapLeft ≤ 1) ∧
    (let s := playing .playing none 4096 0 399
     s.held = false ∧ (s.bku.player .bp0).request = some (request 1) ∧ (request 1).message = .live ∧
     (s.bku.player .bp0).state = .playing ∧ 399 ≤ (s.bku.player .bp0).liveMiss) ∧
    ((playing .gap none 4096 2 0).bku.bp0.request = some (request 1) ∧ (playing .gap none 4096 2 0).bku.bp0.state ≠ .idle ∧
     1 < (playing .gap none 4096 2 0).bku.bp0.gapLeft ∧ (playing .playing none 4096 0 398).bku.bp0.liveMiss < 399) ∧
    (let st : Store := { Store.default with messages := Store.default.messages.put 47 (some ⟨2047, 1, 4096⟩) }
     let at_ := fun plays gap => ({ request 1 with message := .stored 47, plays := plays, gap := gap } : AnnRequest)
     st.messages.get 47 = some ⟨2047, 1, 4096⟩ ∧ (at_ 1 0).message = .stored 47 ∧ (511 : Nat) + 1 = 512 * 1 ∧ (510 : Nat) + 1 ≠ 512 * 1 ∧
     min 65535 ((at_ 2 1).playsDone + 1) < (at_ 2 1).plays ∧ 0 < (at_ 2 1).gap ∧ (at_ 0 0).plays = 0 ∧ (at_ 0 0).gap = 0 ∧
     (at_ 1 0).plays ≠ 0 ∧ (at_ 1 0).plays ≤ min 65535 ((at_ 1 0).playsDone + 1)) ∧
    ((playing .fadeOut (some (.finish .completed)) 0 0 0).bku.bp0.intent = some (.finish .completed) ∧
     (playing .fadeOut (some .requeue) 0 0 0).bku.bp0.intent = some .requeue) ∧
    (let x := (playing .playing none 4096 0 0).bku.bp0
     let y : Lane := ⟨.live, some 0, 0, none⟩
     let ctb := awake.ctb.put 0 covered
     x.state ≠ .idle ∧ y.state = .live ∧ x.request = some (request 1) ∧ y.owner = some 0 ∧
     (request 1).zones.getLsbD (0 : GroupId).val = true ∧ (ctb.get 0).fields.kind = .broadcast ∧
     (ctb.get 0).fields.eligible = true ∧ (request 1).carriers = .all ∧ Player.default.state = .idle) := by decide +kernel

theorem witness_PgopenOpensABlankPage : awake.hears .a 1 ∧ (2048 : Nat) ≤ 2048 ∧ 2047 = (2047 : PageId).val :=
  ⟨awake_hears, by decide, by decide⟩

theorem witness_PgdataWritesTheBuffer :
    let s := withStore { Store.default with buffer := some (load 0) }
    s.hears .a 1 ∧ 511 < (512 : Nat) ∧ ([] : List Byte).length = 0 ∧ 32 < (List.replicate 33 (0 : Byte)).length ∧
    awake.ast.buffer = none ∧ s.ast.buffer = some (load 0) ∧ 512 < 511 + ([0, 0] : List Byte).length ∧
    480 + (List.replicate 32 (0 : Byte)).length ≤ 512 := ⟨⟨rfl, by decide, rfl⟩, by decide, by decide, by decide, rfl, rfl, by decide, by decide⟩

/-- A store with page 0 loaded, block 0 as given, and the write unit and holder as given. -/
def loaded (b : StoreBlock) (u : WriteUnit) (q : Option PageLoad) : Store :=
  { storeWith b with buffer := some (load 0), unit := u, holder := q }

theorem witness_PgcommitProgramsOrHolds :
    awake.hears .a 1 ∧ awake.ast.buffer = none ∧ (∀ b u q, (withStore (loaded b u q)).hears .a 1) ∧
    (∀ b u q, (withStore (loaded b u q)).ast.buffer = some (load 0)) ∧
    ((loaded { StoreBlock.default with guard := .writeBarred } .idle none).blocks.get 0).guard = .writeBarred ∧
    (loaded .default (.erasing 0) none).unit = .erasing (blockOf 0) ∧
    (0 : PageId).val % 64 ≠ ((loaded { StoreBlock.default with writePointer := 64 } .idle none).blocks.get 0).writePointer ∧
    (let t := loaded .default (.erasing 1) (some (load 128))
     ¬((t.blocks.get 0).guard = .writeBarred ∨ (t.blocks.get 0).guard = .barred) ∧ t.unit ≠ .erasing (blockOf 0) ∧
     (0 : PageId).val % 64 = (t.blocks.get 0).writePointer ∧ t.unit ≠ .idle ∧ t.holder ≠ none) ∧
    (let t := loaded .default .idle none
     (0 : PageId).val % 64 = (t.blocks.get 0).writePointer ∧ t.unit = .idle) ∧
    (let t := loaded .default (.erasing 1) none
     (0 : PageId).val % 64 = (t.blocks.get 0).writePointer ∧ t.unit ≠ .idle ∧ t.holder = none) :=
  ⟨awake_hears, rfl, fun _ _ _ => ⟨rfl, by decide, rfl⟩, fun _ _ _ => rfl, by decide +kernel⟩

theorem witness_ProgramCompletionStoresThePage :
    let s := withStore { Store.default with unit := .programming (load 2047), holder := some (load 0) }
    s.held = false ∧ s.ast.unit = .programming (load 2047) ∧ s.memoryOk ∧
    (∀ q, s.ast.holder = some q → q.page ≠ (load 2047).page) ∧ (∀ l, awake.ast.unit ≠ .programming l) :=
  ⟨rfl, rfl, rfl, fun q h => by cases h; decide, fun l h => by cases h⟩

theorem witness_BlkeraseBeginsAnErase :
    let full := withStore { Store.default with messages := Store.default.messages.put 0 (some ⟨63, 2, 4096⟩) }
    awake.hears .a 1 ∧ (32 : Nat) ≤ 32 ∧ (31 : Nat) = (31 : BlockId).val ∧ awake.memoryOk ∧
    ((storeWith { StoreBlock.default with guard := .eraseBarred }).blocks.get 0).guard = .eraseBarred ∧
    full.hears .a 1 ∧ full.ast.messages.get 0 = some ⟨63, 2, 4096⟩ ∧ (63 : Nat) ≤ (64 : PageId).val ∧ (64 : PageId).val < 63 + 2 ∧
    blockOf 64 = 1 ∧ ({ Store.default with unit := .erasing 1 } : Store).unit ≠ .idle ∧
    (∀ (m : MessageId) (e : Message), awake.ast.messages.get m = some e → 1 ≤ e.count) ∧ awake.ast.unit = .idle ∧
    awake.ast.holder = none :=
  ⟨awake_hears, by decide, by decide, rfl, by decide +kernel, ⟨rfl, by decide, rfl⟩, by decide +kernel, by decide, by decide, by decide,
   by decide, fun m e h => by simp [awake, State.reset, Store.default] at h, rfl, rfl⟩

theorem witness_EraseCompletionEndsTheErase :
    let s := withStore { Store.default with unit := .erasing 0 }
    let t := withStore { Store.default with unit := .erasing 0, holder := some (load 64) }
    s.held = false ∧ s.ast.unit = .erasing 0 ∧ s.ast.holder = none ∧ t.held = false ∧ t.ast.unit = .erasing 0 ∧
    t.ast.holder = some (load 64) ∧ blockOf (load 64).page ≠ 0 ∧ ∀ b, awake.ast.unit ≠ .erasing b :=
  ⟨rfl, rfl, rfl, rfl, rfl, rfl, by decide, fun b h => by cases h⟩

theorem witness_BlkguardRaisesABar :
    awake.hears .a 1 ∧ (32 : Nat) ≤ 32 ∧ (2 : Nat) ≤ 2 ∧ (31 : Nat) = (31 : BlockId).val ∧
    (awake.ast.blocks.get 31).guard = .opened ∧
    ((storeWith { StoreBlock.default with guard := .barred }).blocks.get 0).guard = .barred ∧
    ((storeWith { StoreBlock.default with guard := .eraseBarred }).blocks.get 0).guard = .eraseBarred ∧
    ({ Store.default with unit := .programming (load 63) } : Store).unit = .programming (load 63) ∧ blockOf (load 63).page = 0 :=
  ⟨awake_hears, by decide, by decide, by decide, rfl, by decide +kernel, by decide +kernel, rfl, by decide⟩

theorem witness_MsgdefNamesProgrammedPages :
    let s := withStore { Store.default with
      blocks := Store.default.blocks.put 31 { StoreBlock.default with writePointer := 64, pages := .fill .programmed }
      messages := Store.default.messages.put 1 (some ⟨2047, 1, 4096⟩) }
    s.hears .a 1 ∧ 47 < (48 : Nat) ∧ 2047 < (2048 : Nat) ∧ 256 < (257 : Nat) ∧ (47 : Nat) = (47 : MessageId).val ∧
    s.ast.messages.get 1 ≠ none ∧ s.ast.messages.get 47 = none ∧ 2048 < 2047 + (2 : Nat) ∧ 2047 + (1 : Nat) ≤ 2048 ∧
    s.ast.pageState 1983 ≠ .programmed ∧ (∀ q : PageId, 2047 ≤ q.val → q.val < 2047 + 1 → s.ast.pageState q = .programmed) := by
  refine ⟨⟨rfl, by decide, rfl⟩, by decide, by decide, by decide, by decide, by decide +kernel, by decide +kernel, by decide, by decide,
    by decide +kernel, fun q h1 h2 => ?_⟩
  have : q = 2047 := Fin.ext (by omega)
  subst this
  decide +kernel

theorem witness_MsgclrEmptiesTheEntry :
    let s : State := { awake with bku := { awake.bku with queue := [{ request 1 with message := .stored 47 }] } }
    s.hears .a 1 ∧ 47 < (48 : Nat) ∧ (47 : Nat) = (47 : MessageId).val ∧
    (∃ r, (r ∈ s.bku.queue ∨ s.bku.bp0.request = some r ∨ s.bku.bp1.request = some r) ∧ r.message = .stored 47) ∧
    ¬∃ r, (r ∈ awake.bku.queue ∨ awake.bku.bp0.request = some r ∨ awake.bku.bp1.request = some r) ∧ r.message = .stored 47 := by
  refine ⟨⟨rfl, by decide, rfl⟩, by decide, by decide, ⟨_, .inl (List.mem_singleton.2 rfl), rfl⟩, ?_⟩
  rintro ⟨r, h | h | h, -⟩ <;> cases h

theorem witness_SaveTakesAndWritesASnapshot :
    let s := withStore { Store.default with saving := some awake.snapshot }
    awake.hears .a 1 ∧ awake.ast.saving = none ∧ s.hears .a 1 ∧ s.held = false ∧ s.ast.saving = some awake.snapshot ∧
    s.ast.saving ≠ none := ⟨awake_hears, rfl, ⟨rfl, by decide, rfl⟩, rfl, rfl, by simp [withStore]⟩

theorem witness_IncsetAndIncclrMoveTheLevels :
    let s : State := { awake with ict := { awake.ict with asserted := true, latched := 2 } }
    awake.hears .a 1 ∧ s.hears .a 1 ∧ s.ict.asserted = true ∧ awake.ict.asserted = false ∧
    max awake.ict.latched (Fin.ofNat 4 (min 0 3)) = max awake.ict.latched awake.ict.commanded ∧
    max awake.ict.latched (Fin.ofNat 4 (min 4 3)) ≠ max awake.ict.latched awake.ict.commanded ∧
    ¬((awake.ctb.get 0).fields.kind = .mobile ∧ (awake.ict.profile.get 0).shedRank ≤ (awake.ctb.get 0).fields.rank) ∧
    (awake.ict.profile.get 0).announceMask ≠ (awake.ict.profile.get 3).announceMask :=
  ⟨awake_hears, ⟨rfl, by decide, rfl⟩, by decide +kernel⟩

theorem witness_ProfsetWritesARow :
    awake.hears .a 1 ∧ (4 : Nat) ≤ 4 ∧ codeBool 2 = none ∧ (3 : Nat) = (3 : Level).val ∧ codeBool 0 = some false ∧
    (3 : Level) ≠ max awake.ict.latched awake.ict.commanded ∧ (0 : Level) = max awake.ict.latched awake.ict.commanded :=
  ⟨awake_hears, by decide +kernel⟩

theorem witness_RestartAndCauseclrSetTheAgent :
    awake.hears .a 1 ∧ (2 : Nat) ≤ 2 ∧ (1 : Nat) ≤ 1 ∧ ¬(awake.ast.unit ≠ .idle ∨ awake.ast.holder ≠ none ∨ awake.ast.saving ≠ none) ∧
    (withStore { Store.default with unit := .erasing 0 }).hears .a 1 ∧
    (withStore { Store.default with unit := .erasing 0 }).ast.unit ≠ .idle :=
  ⟨awake_hears, by decide, by decide, by simp [awake, State.reset, Store.default], ⟨rfl, by decide, rfl⟩, by decide⟩

theorem witness_PowerOnAndLineResetAtOnce :
    awake.pins.resetInput = false ∧ ({ awake with pins := ⟨true, false⟩ } : State).pins.resetInput = true := ⟨rfl, rfl⟩

theorem witness_LeavingResetStartsUp :
    let s : State := { awake with pins := ⟨true, false⟩, mga := .fresh .poweredOn }
    let t : State := { s with pins := ⟨false, true⟩, ast := { s.ast with settings := some awake.snapshot } }
    let u : State := { awake with mga := { awake.mga with restart := some .keep } }
    let v : State := { awake with mga := { awake.mga with restart := some .reload } }
    s.pins = ⟨true, false⟩ ∧ s.ast.settings = none ∧ s.mga.queue = [] ∧ t.pins = ⟨false, true⟩ ∧
    t.ast.settings = some awake.snapshot ∧ t.mga.queue = [] ∧ awake.pins.resetInput = false ∧ awake.pins.powerHold = false ∧
    ({ s with pins := ⟨true, true⟩ } : State).pins = ⟨true, true⟩ ∧ u.held = false ∧ u.mga.restart = some .keep ∧
    exec .powerOn u = .next (powerOn u) ∧ v.held = false ∧ v.mga.restart = some .reload ∧ v.ast.settings = none ∧
    exec .powerOn v = .next (powerOn v) ∧ awake.mga.restart = none := by
  refine ⟨rfl, rfl, rfl, rfl, rfl, rfl, rfl, rfl, rfl, rfl, rfl, rfl, rfl, rfl, rfl, rfl, rfl⟩

theorem witness_SlotRaisesTheNextHfn :
    awake.held = false ∧ awake.mga.restart = none ∧
    ({ awake with mga := { awake.mga with restart := some .reload } } : State).mga.restart ≠ none ∧
    readCell (withCellCheck (List.replicate 46 0)) = .empty ∧ readCell (List.replicate 48 0) = .badCheck ∧
    readCell (withCellCheck (10 :: 1 :: 1 :: List.replicate 43 0)) = .malformed 1 10 ∧
    readCell (withCellCheck (10 :: 1 :: 0 :: List.replicate 43 0)) = .request 1 .incclr ∧
    readCell (withCellCheck (1 :: 1 :: 2 :: 9 :: List.replicate 42 0)) = .request 1 (.rdrec .reference 0) ∧
    noticing.tif.settled = some .a ∧ noticing.mga.queue ≠ [] ∧ awake.tif.settled = some .a ∧ State.reset.tif.settled = none ∧
    frameCell (0 :: 0 :: 0 :: 0 :: List.replicate 48 0) = List.replicate 48 0 ∧
    servedBy served.lal 7 = none ∧ servedBy served.lal 0 = some (0, .a) ∧
    (withSpan { SpanPort.default with arrived := true }).spans.ports.get 0 = { SpanPort.default with arrived := true } ∧
    SpanPort.default.arrived = false ∧ SpanPort.default.link = .down ∧
    ((withSpan ⟨.aligning, 2, 0, false, 0, 0, 0, 0, 0, 0⟩).spans.ports.get 0).link = .aligning ∧
    ((withSpan ⟨.up, 4, 6, false, 0, 0, 0, 0, 0, 0⟩).spans.ports.get 0).badRun < 7 ∧
    7 ≤ ((withSpan ⟨.up, 4, 7, false, 0, 0, 0, 0, 0, 0⟩).spans.ports.get 0).badRun := by
  refine ⟨rfl, rfl, by simp, ?_⟩
  decide +kernel

theorem witness_LineSampleLatchesAtThree :
    let s : State := { awake with ict := { awake.ict with run := 1 } }
    let t := lineSample 9 true s
    let u : State := { awake with ict := { awake.ict with run := 2 } }
    let v := lineSample 9 true u
    max t.ict.latched t.ict.commanded = max s.ict.latched s.ict.commanded ∧
    max v.ict.latched v.ict.commanded ≠ max u.ict.latched u.ict.commanded := by decide +kernel

theorem witness_NearestRoundingMirrorsItself :
    (0 : Int) ≤ 0 ∧ (-1 : Int) < 0 ∧ (2 : Int) * 10240 = (2 * 2 + 1) * (4096 : Nat) := by decide

/-! ### Witnesses of the laws: the awake hub meets each, and its step idles -/

theorem awake_step : step awake = .next awake := rfl

theorem witness_StepKeepsMemoryCanonical : awake.memoryOk ∧ step awake = .next awake := ⟨rfl, awake_step⟩

theorem witness_StepKeepsRolesAndReference : awake.rolesOk ∧ step awake = .next awake := by
  refine ⟨?_, awake_step⟩
  unfold State.rolesOk
  decide

theorem witness_StepKeepsNoticeQueue : awake.noticesOk ∧ step awake = .next awake ∧
    (let key := fun n : Notice => (n.kindCode, n.subject)
     noticing.mga.queue = [] ++ ⟨.referenceState .locked, 1⟩ :: [] ∧ key (.referenceState .locked) = key (.referenceState .freeRun) ∧
     (∀ d ∈ noticing.mga.queue, key d.latest ≠ key (.spanState 0 .up)) ∧ noticing.mga.queue.length < 32 ∧
     let full : Agent := { awake.mga with queue := List.replicate 32 ⟨.referenceState .locked, 1⟩ }
     (∀ d ∈ full.queue, key d.latest ≠ key (.spanState 0 .up)) ∧ 32 ≤ full.queue.length) := by
  refine ⟨?_, awake_step, by decide⟩
  unfold State.noticesOk
  decide

theorem witness_StepKeepsDestinationsDistinct :
    let s := withC01 (carrierIn .active (some 5) (some .shed)) (carrierIn .active (some 6) (some .shed))
    s.destinationsOk ∧ step s = .next s := by
  refine ⟨?_, rfl⟩
  have h : ∀ c : CarrierId, ((withC01 (carrierIn .active (some 5) (some .shed)) (carrierIn .active (some 6) (some .shed))).ctb.get
      c).state = .active → c = 0 ∨ c = 1 := by decide +kernel
  intro c d hne hc hd _
  rcases h c hc with rfl | rfl <;> rcases h d hd with rfl | rfl <;> first | exact absurd rfl hne | decide +kernel

theorem witness_StepKeepsLimiterBounds : served.limiterOk ∧ step served = .next served := by
  refine ⟨⟨fun h => ?_, by decide +kernel, fun x h => ?_⟩, rfl⟩ <;> cases h

theorem witness_StepKeepsConfigurationConsistent :
    let s := withC0 (carrierIn .active none (some .shed))
    s.configOk ∧ step s = .next s := by
  refine ⟨⟨served_forms, by decide +kernel, ?_, ?_⟩, rfl⟩
  · intro x h
    cases h
  · decide +kernel

theorem witness_StepKeepsPlacementsAgreeing :
    let s := placed .held
    s.placementsOk ∧ step s = .next s := ⟨placed_ok .held, rfl⟩

theorem witness_StepKeepsCombineWindow :
    let s : State := { awake with fps := { awake.fps with hfn := some 1 }, ucb := { awake.ucb with window := [⟨0, []⟩, ⟨1, []⟩] } }
    s.windowOk ∧ step s = .next s := by
  refine ⟨⟨⟨2, by decide, by decide⟩, ?_⟩, rfl⟩
  intro x h
  rcases List.mem_cons.1 h with rfl | h
  · exact List.nodup_nil
  · rcases List.mem_cons.1 h with rfl | h
    · exact List.nodup_nil
    · cases h

theorem witness_StepKeepsContexts : served.contextsOk ∧ step served = .next served := by
  refine ⟨?_, rfl⟩
  unfold State.contextsOk Context.reasonOk
  decide +kernel

theorem witness_StepKeepsBreakIn : (queued 16).breakInOk ∧ step (queued 16) = .next (queued 16) :=
  ⟨queued_ok 16 (by decide), rfl⟩

/-- A store that erases block 1 while a commit of page 0 waits for the unit. -/
def busy : Store :=
  { Store.default with
    blocks := (Store.default.blocks.put 0 { StoreBlock.default with writePointer := 1 }).put 1
      { StoreBlock.default with pages := .fill .erasing }
    unit := .erasing 1
    holder := some (load 0) }

/-- The blocks of the busy store: block 0 has one page counted, block 1 is being erased, the others are as delivered. -/
theorem busy_block (b : BlockId) : busy.blocks.get b =
    if b = 1 then { StoreBlock.default with pages := .fill .erasing }
    else if b = 0 then { StoreBlock.default with writePointer := 1 } else .default := by
  by_cases h1 : b = 1
  · subst h1; simp [busy]
  · by_cases h0 : b = 0
    · subst h0; simp [busy]
    · simp [busy, Store.default, Ne.symm h1, Ne.symm h0, h1, h0]

theorem busy_pointer (p : PageId) : (withStore busy).ast.pointer p = if blockOf p = 0 then 1 else 0 := by
  simp only [withStore, Store.pointer, busy_block]
  by_cases h1 : blockOf p = 1
  · simp [h1, StoreBlock.default]
  · by_cases h0 : blockOf p = 0 <;> simp [h0, h1, StoreBlock.default]

theorem busy_pageState (p : PageId) : (withStore busy).ast.pageState p = if blockOf p = 1 then .erasing else .erased := by
  simp only [withStore, Store.pageState, busy_block]
  by_cases h1 : blockOf p = 1
  · simp [h1]
  · by_cases h0 : blockOf p = 0 <;> simp [h0, h1, StoreBlock.default]

theorem busy_erasing (b : BlockId) : (withStore busy).ast.erasing b = decide (1 = b) := rfl

theorem witness_StepKeepsStore : (withStore busy).storeOk ∧ step (withStore busy) = .next (withStore busy) := by
  refine ⟨⟨fun m e h => ?_, by decide +kernel, fun p _ => ?_, ?_, fun p h => ?_, fun q h => ?_⟩, rfl⟩
  · simp [withStore, busy, Store.default] at h
  · rw [busy_pageState, busy_erasing]
    by_cases h1 : blockOf p = 1 <;> simp [h1]
  · intro l h
    cases h
  · rw [busy_erasing, decide_eq_true_eq] at h
    rw [busy_pageState, if_pos h.symm]
  · cases h
    exact ⟨by simp [withStore, busy], by rw [busy_pageState]; decide, by rw [busy_pointer]; decide, by rw [busy_erasing]; decide⟩

end Sys2Proof.Tests
end

section
/-! The nearest rounding of section 5.4 of 00_scope.md (R3): its value on non-negative values, its mirror, its error bound and its halves, for every
divisor, and the obligation assembled from them. -/
namespace Sys2Proof.Proofs
open Sys2Proof Sys2Proof.Machine

/-- R3 for non-negative values: half the divisor is added, then floor. -/
theorem nearest_of_nonneg {v : Int} (hv : 0 ≤ v) (d : Nat) : nearest v d = (v + (d / 2 : Nat)) / (d : Int) := by
  rw [nearest, if_pos hv, Int.natCast_ediv, Int.natCast_add, Int.toNat_of_nonneg hv]

@[simp] theorem nearest_zero (d : Nat) : nearest 0 d = 0 := by
  have half_div : d / 2 / d = 0 := Nat.div_eq_zero_iff.mpr (by omega)
  simp [nearest, half_div]

theorem nearest_of_neg {v : Int} (hv : v < 0) (d : Nat) : nearest v d = -nearest (-v) d := by
  rw [nearest, if_neg (Int.not_le.mpr hv), nearest, if_pos (Int.neg_nonneg_of_nonpos hv.le)]

/-- The rounding is odd: R3's mirror holds whatever the sign, zero included. -/
@[simp] theorem nearest_neg (v : Int) (d : Nat) : nearest (-v) d = -nearest v d := by
  obtain hneg | rfl | hpos := lt_trichotomy v 0
  · rw [nearest_of_neg hneg, Int.neg_neg]
  · simp
  · rw [nearest_of_neg (Int.neg_neg_of_pos hpos), Int.neg_neg]

/-- On non-negative values the quotient's remainder lies in `[0, d)`, so taking off the half added bounds the error. -/
theorem nearest_error_of_nonneg {v : Int} (hv : 0 ≤ v) {d : Nat} (hd : 0 < d) : 2 * (nearest v d * d - v).natAbs ≤ d := by
  have hd' : (0 : Int) < d := Int.natCast_pos.mpr hd
  have division := Int.mul_ediv_add_emod (v + (d / 2 : Nat)) d
  have low := Int.emod_nonneg (v + (d / 2 : Nat)) hd'.ne'
  have high := Int.emod_lt_of_pos (v + (d / 2 : Nat)) hd'
  rw [nearest_of_nonneg hv, Int.mul_comm]
  omega

/-- The nearest rounding is off by at most half the divisor. -/
theorem nearest_error (v : Int) {d : Nat} (hd : 0 < d) : 2 * (nearest v d * d - v).natAbs ≤ d := by
  obtain hv | hv := le_total 0 v
  · exact nearest_error_of_nonneg hv hd
  · have mirrored := nearest_error_of_nonneg (Int.neg_nonneg_of_nonpos hv) hd
    rwa [nearest_neg, Int.neg_mul, neg_sub_neg, ← Int.natAbs_neg, neg_sub] at mirrored

/-- Halfway between `q` and `q + 1` the rounding takes `q + 1`, away from zero. -/
theorem nearest_of_half {v q : Int} {d : Nat} (hd : 0 < d) (even : 2 ∣ d) (hq : 0 ≤ q) (half : 2 * v = (2 * q + 1) * d) :
    nearest v d = q + 1 := by
  obtain ⟨m, rfl⟩ := even
  have hm : 2 * m / 2 = m := Nat.mul_div_cancel_left m Nat.two_pos
  have value : v = (2 * q + 1) * m := by push_cast at half; linarith
  have hv : 0 ≤ v := by rw [value]; positivity
  have raised : v + (m : Int) = (q + 1) * (2 * m : Nat) := by rw [value]; push_cast; ring
  rw [nearest_of_nonneg hv, hm, raised, Int.mul_ediv_cancel _ (Int.natCast_pos.mpr hd).ne']

/-- Settles O48: each part is a rule above, at an even positive divisor; 10240 is halfway between 2 and 3 times 4096. -/
theorem nearestRoundingMirrorsItself : Obligations.NearestRoundingMirrorsItself := by
  intro v d divisor
  have hd : 0 < d := by omega
  have even : 2 ∣ d := by omega
  have worked : nearest 10240 4096 = 3 := nearest_of_half (q := 2) (by decide) (by decide) (by decide) (by decide)
  refine ⟨fun hv => nearest_of_nonneg hv d, fun hv => nearest_of_neg hv d, nearest_error v hd, fun q hq half => ?_, worked, ?_⟩
  · rw [nearest_neg, nearest_of_half hd even hq half]
    exact ⟨rfl, rfl⟩
  · rw [nearest_neg, worked]

end Sys2Proof.Proofs
end

section
/-! The agreement of placement states, lanes and waiting list in one group (R17, R28, R34), and the changes that keep it. -/
namespace Sys2Proof.Machine
open Function (update)

/-- Placement states, lanes and waiting list of one group agree: the parts of `State.placementsOk` that speak of one group. -/
structure GroupAgrees (st : CarrierId → Option PlacementState) (lane : LaneId → Lane) (w : List CarrierId) : Prop where
  held : ∀ c, st c = some .held ↔ ∃ l, (lane l).owner = some c
  waiting : ∀ c, st c = some .waiting ↔ c ∈ w
  single : ∀ l m, (lane l).owner.isSome → (lane l).owner = (lane m).owner → l = m
  free : ∀ l, (lane l).state = .free ↔ (lane l).owner = none
  nodup : w.Nodup

namespace GroupAgrees

variable {st : CarrierId → Option PlacementState} {lane : LaneId → Lane} {w : List CarrierId} {c : CarrierId} {l : LaneId}

/-- Owners, and which lanes are FREE, are all that the agreement says of lanes. -/
theorem of_lanes (h : GroupAgrees st lane w) {lane' : LaneId → Lane} (owner : ∀ l, (lane' l).owner = (lane l).owner)
    (free : ∀ l, (lane' l).state = .free ↔ (lane l).state = .free) : GroupAgrees st lane' w where
  held d := by simp only [owner]; exact h.held d
  waiting := h.waiting
  single l m := by simp only [owner]; exact h.single l m
  free l := by rw [free, owner]; exact h.free l
  nodup := h.nodup

/-- A placement that neither waits nor is HELD, before and after. -/
theorem restate (h : GroupAgrees st lane w) {x : Option PlacementState} (hh : st c ≠ some .held) (hw : st c ≠ some .waiting)
    (xh : x ≠ some .held) (xw : x ≠ some .waiting) : GroupAgrees (update st c x) lane w where
  held d := by
    obtain rfl | hd := eq_or_ne d c
    · simpa [xh] using fun l hl => hh ((h.held d).2 ⟨l, hl⟩)
    · simpa [hd] using h.held d
  waiting d := by
    obtain rfl | hd := eq_or_ne d c
    · simpa [xw] using fun hm => hw ((h.waiting d).2 hm)
    · simpa [hd] using h.waiting d
  single := h.single
  free := h.free
  nodup := h.nodup

/-- An entry joins the list (R34). -/
theorem join (h : GroupAgrees st lane w) (hh : st c ≠ some .held) (hw : st c ≠ some .waiting) {w₁ w₂ : List CarrierId}
    (split : w = w₁ ++ w₂) : GroupAgrees (update st c (some .waiting)) lane (w₁ ++ c :: w₂) where
  held d := by
    obtain rfl | hd := eq_or_ne d c
    · simpa using fun l hl => hh ((h.held d).2 ⟨l, hl⟩)
    · simpa [hd] using h.held d
  waiting d := by
    obtain rfl | hd := eq_or_ne d c
    · simp
    · simpa [hd, split] using h.waiting d
  single := h.single
  free := h.free
  nodup := by
    have fresh : c ∉ w₁ ++ w₂ := by rw [← split]; exact fun hm => hw ((h.waiting c).2 hm)
    have apart : (w₁ ++ w₂).Nodup := split ▸ h.nodup
    exact List.nodup_middle.2 (List.nodup_cons.2 ⟨fresh, apart⟩)

/-- An entry leaves the list (R34). -/
theorem leave (h : GroupAgrees st lane w) {x : Option PlacementState} (hh : st c ≠ some .held)
    (xh : x ≠ some .held) (xw : x ≠ some .waiting) : GroupAgrees (update st c x) lane (w.filter (· != c)) where
  held d := by
    obtain rfl | hd := eq_or_ne d c
    · simpa [xh] using fun l hl => hh ((h.held d).2 ⟨l, hl⟩)
    · simpa [hd] using h.held d
  waiting d := by
    obtain rfl | hd := eq_or_ne d c
    · simp [xw]
    · simpa [hd] using h.waiting d
  single := h.single
  free := h.free
  nodup := h.nodup.filter _

/-- An owned lane is released (R32). -/
theorem vacate (h : GroupAgrees st lane w) {x : Option PlacementState} (hl : (lane l).owner = some c)
    (xh : x ≠ some .held) (xw : x ≠ some .waiting) : GroupAgrees (update st c x) (update lane l .default) w where
  held d := by
    obtain rfl | hd := eq_or_ne d c
    · simp only [Function.update_self, xh, false_iff, not_exists]
      intro m hm
      obtain rfl | ne := eq_or_ne m l
      · simp [Lane.default] at hm
      · rw [Function.update_of_ne ne] at hm
        exact ne (h.single l m (by simp [hl]) (by rw [hl, hm])).symm
    · rw [Function.update_of_ne hd, h.held]
      constructor
      · rintro ⟨m, hm⟩
        have ne : m ≠ l := by rintro rfl; exact hd (Option.some.inj (hm.symm.trans hl))
        exact ⟨m, by rwa [Function.update_of_ne ne]⟩
      · rintro ⟨m, hm⟩
        obtain rfl | ne := eq_or_ne m l
        · simp [Lane.default] at hm
        · exact ⟨m, by rwa [Function.update_of_ne ne] at hm⟩
  waiting d := by
    obtain rfl | hd := eq_or_ne d c
    · have hh : st d ≠ some .waiting := by rw [(h.held d).2 ⟨l, hl⟩]; decide
      simpa [xw] using fun hm => hh ((h.waiting d).2 hm)
    · simpa [hd] using h.waiting d
  single m n hm e := by
    obtain rfl | mne := eq_or_ne m l
    · simp [Lane.default] at hm
    · obtain rfl | nne := eq_or_ne n l
      · rw [e] at hm; simp [Lane.default] at hm
      · rw [Function.update_of_ne mne] at hm e
        rw [Function.update_of_ne nne] at e
        exact h.single m n hm e
  free m := by
    obtain rfl | ne := eq_or_ne m l
    · simp [Lane.default]
    · simpa [ne] using h.free m
  nodup := h.nodup

/-- A waiting entry takes a lane that nobody owns (R36). -/
theorem seat (h : GroupAgrees st lane w) {x : Lane} (hc : st c = some .waiting) (hl : (lane l).owner = none)
    (owner : x.owner = some c) (state : x.state ≠ .free) :
    GroupAgrees (update st c (some .held)) (update lane l x) (w.filter (· != c)) where
  held d := by
    obtain rfl | hd := eq_or_ne d c
    · simpa using ⟨l, by simpa using owner⟩
    · rw [Function.update_of_ne hd, h.held]
      constructor
      · rintro ⟨m, hm⟩
        have ne : m ≠ l := by rintro rfl; rw [hl] at hm; cases hm
        exact ⟨m, by rwa [Function.update_of_ne ne]⟩
      · rintro ⟨m, hm⟩
        obtain rfl | ne := eq_or_ne m l
        · rw [Function.update_self, owner] at hm; exact absurd (Option.some.inj hm).symm hd
        · exact ⟨m, by rwa [Function.update_of_ne ne] at hm⟩
  waiting d := by
    obtain rfl | hd := eq_or_ne d c
    · simp
    · simpa [hd] using h.waiting d
  single m n hm e := by
    have unseated : ∀ k, (lane k).owner ≠ some c := fun k hk => by simpa [hc] using (h.held c).2 ⟨k, hk⟩
    obtain rfl | mne := eq_or_ne m l
    · obtain rfl | nne := eq_or_ne n m
      · rfl
      · rw [Function.update_self, Function.update_of_ne nne, owner] at e
        exact absurd e.symm (unseated n)
    · obtain rfl | nne := eq_or_ne n l
      · rw [Function.update_self, Function.update_of_ne mne, owner] at e
        exact absurd e (unseated m)
      · rw [Function.update_of_ne mne] at hm e
        rw [Function.update_of_ne nne] at e
        exact h.single m n hm e
  free m := by
    obtain rfl | ne := eq_or_ne m l
    · simp [owner, state]
    · simpa [ne] using h.free m
  nodup := h.nodup.filter _

end GroupAgrees

end Sys2Proof.Machine
end

section
/-! What the lane allocator's operations do to the placement states, lanes and list of the group they work on, and that each keeps these in
agreement (R17). -/
namespace Sys2Proof.Machine
namespace Alloc
open Function (update)

/-- The agreement of R17 in group `g`. -/
def AgreesIn (g : GroupId) (a : Alloc) : Prop := GroupAgrees (fun c => a.placementState c g) (a.lane g) (a.waiting g)

/-- Group `g` agrees after as before, and the same carriers have a placement state there. -/
def Settles (g : GroupId) (a b : Alloc) : Prop :=
  AgreesIn g b ∧ ∀ c : CarrierId, (b.placementState c g).isSome = (a.placementState c g).isSome

theorem Settles.trans {g : GroupId} {a b d : Alloc} (h : Settles g a b) (k : Settles g b d) : Settles g a d :=
  ⟨k.1, fun c => (k.2 c).trans (h.2 c)⟩

variable (a : Alloc) (g : GroupId) (c d : CarrierId) (l : LaneId) (n : Notice) (x : Lane) (st : Option PlacementState)
  (w : List CarrierId)

/-! ### Each operation, seen from its group -/

@[simp] theorem placementState_say : (a.say n).placementState c g = a.placementState c g := rfl
@[simp] theorem lane_say : (a.say n).lane g = a.lane g := rfl
@[simp] theorem waiting_say : (a.say n).waiting g = a.waiting g := rfl
@[simp] theorem lane_setPlacement : (a.setPlacement c g st).lane g = a.lane g := rfl
@[simp] theorem waiting_setPlacement : (a.setPlacement c g st).waiting g = a.waiting g := rfl
@[simp] theorem placementState_setWaiting : (a.setWaiting g w).placementState c g = a.placementState c g := rfl
@[simp] theorem placementState_putLane : (a.putLane g l x).placementState c g = a.placementState c g := rfl

@[simp] theorem waiting_setWaiting : (a.setWaiting g w).waiting g = w := by simp [waiting, setWaiting]
@[simp] theorem waiting_putLane : (a.putLane g l x).waiting g = a.waiting g := by simp [waiting, putLane]

@[simp] theorem lane_setWaiting : (a.setWaiting g w).lane g = a.lane g := by
  funext m; simp [lane, setWaiting]

@[simp] theorem lane_putLane : (a.putLane g l x).lane g = update (a.lane g) l x := by
  funext m
  obtain rfl | ne := eq_or_ne m l
  · simp [lane, putLane]
  · simp [lane, putLane, ne, ne.symm]

/-- A placement's new state, where there is a record (R16). -/
theorem placementState_setPlacement : (a.setPlacement c g st).placementState d g =
    if d = c ∧ ((a.ctb.get c).placements.get g).isSome then st else a.placementState d g := by
  obtain rfl | ne := eq_or_ne d c
  · cases h : (a.ctb.get d).placements.get g <;> simp [placementState, setPlacement, h]
  · simp [placementState, setPlacement, ne, ne.symm]

theorem has_record_of_state {a : Alloc} {c : CarrierId} {g : GroupId} (h : a.placementState c g ≠ none) :
    ((a.ctb.get c).placements.get g).isSome := by
  cases e : (a.ctb.get c).placements.get g
  · simp [placementState, e] at h
  · rfl

/-- All placement states of the group, after one has changed. -/
theorem states_setPlacement {a : Alloc} {c : CarrierId} {g : GroupId} (h : ((a.ctb.get c).placements.get g).isSome) :
    (fun d => (a.setPlacement c g st).placementState d g) = update (fun d => a.placementState d g) c st := by
  funext d
  simp [placementState_setPlacement, h, Function.update_apply]

/-- Taking a state away leaves none, record or not. -/
theorem states_setPlacement_none :
    (fun d => (a.setPlacement c g none).placementState d g) = update (fun d => a.placementState d g) c none := by
  funext d
  by_cases h : ((a.ctb.get c).placements.get g).isSome
  · simp [placementState_setPlacement, h, Function.update_apply]
  · have bare : a.placementState c g = none := by
      by_contra hs; exact h (has_record_of_state hs)
    obtain rfl | ne := eq_or_ne d c
    · simp [placementState_setPlacement, h, bare]
    · simp [placementState_setPlacement, ne]

@[simp] theorem lane_give :
    (a.give g l c).lane g = update (a.lane g) l ⟨.guard, some c, (a.lal.get g).config.guard, none⟩ := by
  simp [give, leave]

@[simp] theorem waiting_give : (a.give g l c).waiting g = (a.waiting g).filter (· != c) := by
  simp [give, leave]

/-- A lane given makes the placement HELD. -/
theorem placementState_give : (a.give g l c).placementState d g =
    if d = c ∧ ((a.ctb.get c).placements.get g).isSome then some .held else a.placementState d g :=
  placementState_setPlacement ((a.putLane g l ⟨.guard, some c, (a.lal.get g).config.guard, none⟩).leave g c) g c d _

/-! ### The grant step (R36) -/

theorem owner_none_of_freeLane {a : Alloc} {g : GroupId} {l : LaneId} (h : a.AgreesIn g) (hl : a.freeLane g = some l) :
    (a.lane g l).owner = none := by
  have state := List.find?_some hl
  exact (h.free l).1 (by simpa using state)

/-- All placement states of the group, after a lane is given. -/
theorem states_give {a : Alloc} {g : GroupId} {c : CarrierId} (l : LaneId) (h : ((a.ctb.get c).placements.get g).isSome) :
    (fun d => (a.give g l c).placementState d g) = update (fun d => a.placementState d g) c (some .held) := by
  funext d; simp [placementState_give, h, Function.update_apply]

/-- A lane given to an entry of the list, where the group agrees but for that lane, which nobody is to own. -/
theorem give_agrees {a : Alloc} {g : GroupId} {c : CarrierId} {l : LaneId} {lanes : LaneId → Lane}
    (h : GroupAgrees (fun d => a.placementState d g) lanes (a.waiting g)) (hc : a.placementState c g = some .waiting)
    (hl : (lanes l).owner = none) (others : update lanes l = update (a.lane g) l) : (a.give g l c).AgreesIn g := by
  rw [AgreesIn, states_give l (has_record_of_state (by simp [hc])), lane_give, waiting_give, ← others]
  exact h.seat hc hl rfl LaneState.noConfusion

/-- A lane given to an entry leaves every carrier with a state that had one, and gives none to others. -/
theorem isSome_give {a : Alloc} {g : GroupId} {c : CarrierId} (l : LaneId) (hc : (a.placementState c g).isSome) (d : CarrierId) :
    ((a.give g l c).placementState d g).isSome = (a.placementState d g).isSome := by
  rw [placementState_give]
  obtain rfl | ne := eq_or_ne d c
  · simp [has_record_of_state (Option.isSome_iff_ne_none.1 hc), hc]
  · simp [ne]

theorem grantStep_settles (g : GroupId) (w : List CarrierId) : ∀ a : Alloc, a.AgreesIn g → w.Nodup →
    (∀ c ∈ w, a.placementState c g = some .waiting) → Settles g a (grantStep g w a) := by
  induction w with
  | nil => exact fun a h _ _ => ⟨h, fun _ => rfl⟩
  | cons c w ih =>
    intro a h nodup waits
    obtain ⟨fresh, nodup⟩ := List.nodup_cons.1 nodup
    unfold grantStep
    split
    · exact ⟨h, fun _ => rfl⟩
    · next l hl =>
      have hc := waits c List.mem_cons_self
      have given : Settles g a (a.give g l c) :=
        ⟨give_agrees h hc (owner_none_of_freeLane h hl) rfl, isSome_give l (by simp [hc])⟩
      refine given.trans (ih _ given.1 nodup fun d hd => ?_)
      have ne : d ≠ c := fun e => fresh (e ▸ hd)
      simpa [placementState_give, ne] using waits d (List.mem_cons_of_mem c hd)

/-! ### The preempt step (R37, R38) -/

/-- The better of a victim found so far and the owner of lane `l`: the greater rank, and of equal ranks the later lane (R38). -/
def betterVictim (a : Alloc) (g : GroupId) (best : Option (LaneId × CarrierId × Nat)) (l : LaneId) :
    Option (LaneId × CarrierId × Nat) :=
  match a.victimAt g l with
  | none => best
  | some v => if best.all fun b => b.2.2 ≤ v.2 then some (l, v) else best

theorem victim_eq (a : Alloc) (g : GroupId) :
    a.victim g = ((List.finRange 32).foldl (a.betterVictim g) none).map fun x => (x.1, x.2.1) := by
  have better : a.betterVictim g = fun best l => match a.victimAt g l, best with
      | none, _ => best
      | some (c, r), none => some (l, c, r)
      | some (c, r), some (_, _, r') => if r' ≤ r then some (l, c, r) else best := by
    funext best l
    cases h : a.victimAt g l <;> cases best <;> simp [betterVictim, h]
  rw [better]
  rfl

/-- A victim is the MOBILE owner of a lane in use. -/
theorem victimAt_eq_some {a : Alloc} {g : GroupId} {l : LaneId} {v : CarrierId} {r : Nat} :
    a.victimAt g l = some (v, r) ↔ (a.lane g l).state ≠ .free ∧ (a.lane g l).owner = some v ∧
      (a.ctb.get v).fields.kind = .mobile ∧ (a.ctb.get v).fields.rank = r := by
  unfold victimAt
  split
  · next hs => simp [hs]
  · next ho _ => simp [ho]
  · next u hu used =>
    have used : (a.lane g l).state ≠ .free := used
    by_cases mobile : (a.ctb.get u).fields.kind = .mobile
    · rw [if_pos mobile, hu, Option.some.injEq, Option.some.injEq, Prod.mk.injEq]
      constructor
      · rintro ⟨rfl, rfl⟩; exact ⟨used, rfl, mobile, rfl⟩
      · rintro ⟨-, rfl, -, rfl⟩; exact ⟨rfl, rfl⟩
    · rw [if_neg mobile, hu]
      refine iff_of_false (by simp) ?_
      rintro ⟨-, e, still, -⟩
      cases e; exact absurd still mobile

/-- A fold of `betterVictim` holds only victims. -/
theorem victimAt_of_betterVictim {a : Alloc} {g : GroupId} (ls : List LaneId) :
    ∀ best, (∀ l v, best = some (l, v) → a.victimAt g l = some v) →
      ∀ l v, ls.foldl (a.betterVictim g) best = some (l, v) → a.victimAt g l = some v := by
  induction ls with
  | nil => exact fun _ h => h
  | cons m ls ih =>
    intro best h
    refine ih _ fun l v e => ?_
    unfold betterVictim at e
    split at e
    · exact h l v e
    · next u hu =>
      split at e
      · cases e; exact hu
      · exact h l v e

theorem owner_of_victim {a : Alloc} {g : GroupId} {l : LaneId} {v : CarrierId} (h : a.victim g = some (l, v)) :
    (a.lane g l).owner = some v := by
  rw [victim_eq, Option.map_eq_some_iff] at h
  obtain ⟨⟨m, u, r⟩, found, e⟩ := h
  cases e
  have victim := victimAt_of_betterVictim _ none (by simp) _ _ found
  obtain ⟨-, owner, -, -⟩ := victimAt_eq_some.1 victim
  exact owner

/-- The classes of the list are those of the carriers' kinds, which no change of a placement touches. -/
@[simp] theorem classOf_setPlacement (a : Alloc) (v : CarrierId) (h : GroupId) (st : Option PlacementState) (c : CarrierId) :
    (a.setPlacement v h st).classOf c = a.classOf c := by
  unfold classOf; rw [((keeps_setPlacement a v h st).record c).2]

/-- A handover: the victim waits, and the entry takes its lane (R38). -/
theorem handOver_settles {a : Alloc} {g : GroupId} {c v : CarrierId} {l : LaneId} (h : a.AgreesIn g)
    (hc : a.placementState c g = some .waiting) (hl : (a.lane g l).owner = some v) : Settles g a (a.handOver g l v c) := by
  have hv : a.placementState v g = some .held := (h.held v).2 ⟨l, hl⟩
  have ne : c ≠ v := by rintro rfl; simp [hv] at hc
  have record := has_record_of_state (a := a) (c := v) (g := g) (by simp [hv])
  let b := (a.setPlacement v g (some .waiting)).joinHeadMobile g v
  have states : (fun d => b.placementState d g) = update (fun d => a.placementState d g) v (some .waiting) :=
    states_setPlacement _ record
  have state : ∀ d, b.placementState d g = update (fun d => a.placementState d g) v (some .waiting) d := congrFun states
  have agrees : GroupAgrees (fun d => b.placementState d g) (update (a.lane g) l .default) (b.waiting g) := by
    have vacated := h.vacate (x := none) hl (by decide) (by decide)
    have joined := vacated.join (c := v) (by simp) (by simp) (List.takeWhile_append_dropWhile (p := fun x => a.classOf x < 2)).symm
    rw [Function.update_idem] at joined
    rw [states]
    simpa [b, joinHeadMobile] using joined
  have hbc : b.placementState c g = some .waiting := by rw [state, Function.update_of_ne ne]; exact hc
  refine ⟨give_agrees agrees hbc (by simp [Lane.default]) ?_, fun d => ?_⟩
  · have lane : b.lane g = a.lane g := lane_setWaiting _ _ _
    rw [lane]
    funext x
    exact Function.update_idem _ _ _
  · rw [handOver, placementState_say]
    refine (isSome_give (a := b) l (Option.isSome_of_eq_some hbc) d).trans ?_
    rw [state]
    obtain rfl | dv := eq_or_ne d v
    · simp [hv]
    · simp [dv]

theorem preemptStep_settles (g : GroupId) (row : ProfileRow) (w : List CarrierId) : ∀ a : Alloc, a.AgreesIn g → w.Nodup →
    (∀ c ∈ w, a.placementState c g = some .waiting) → Settles g a (preemptStep g row w a) := by
  induction w with
  | nil => exact fun a h _ _ => ⟨h, fun _ => rfl⟩
  | cons c w ih =>
    intro a h nodup waits
    obtain ⟨fresh, nodup⟩ := List.nodup_cons.1 nodup
    have rest := fun d hd => waits d (List.mem_cons_of_mem c hd)
    unfold preemptStep
    split
    · split
      · exact ⟨h, fun _ => rfl⟩
      · next l v hv =>
        have owner := owner_of_victim hv
        have handed := handOver_settles h (waits c List.mem_cons_self) owner
        refine handed.trans (ih _ handed.1 nodup fun d hd => ?_)
        have dc : d ≠ c := fun e => fresh (e ▸ hd)
        have dv : d ≠ v := by
          rintro rfl
          have held := (h.held d).2 ⟨l, owner⟩
          rw [rest d hd] at held; cases held
        simpa [handOver, placementState_give, dc, joinHeadMobile, placementState_setPlacement, dv] using rest d hd
    · exact ih a h nodup rest

/-- A run of the group's arbiter (R35). -/
theorem arbiter_settles {a : Alloc} {g : GroupId} (row : ProfileRow) (h : a.AgreesIn g) : Settles g a (arbiter g row a) := by
  have granted := grantStep_settles g (a.waiting g) a h h.nodup fun c hc => (h.waiting c).2 hc
  exact granted.trans (preemptStep_settles g row _ _ granted.1 granted.1.nodup fun c hc => (granted.1.waiting c).2 hc)

/-! ### Entering, leaving, shedding and unshedding -/

/-- One placement changed: the others keep their state. -/
theorem placementState_setPlacement_ne (a : Alloc) (g : GroupId) {c d : CarrierId} (st : Option PlacementState) (ne : d ≠ c) :
    (a.setPlacement c g st).placementState d g = a.placementState d g := by
  simp [placementState_setPlacement, ne]

/-- A placement that neither waits nor is HELD joins the tail of its class (R34). -/
theorem join_agrees {a : Alloc} {g : GroupId} {c : CarrierId} (h : a.AgreesIn g) (hh : a.placementState c g ≠ some .held)
    (hw : a.placementState c g ≠ some .waiting) (record : ((a.ctb.get c).placements.get g).isSome) :
    ((a.setPlacement c g (some .waiting)).joinTail g c).AgreesIn g := by
  have joined := h.join hh hw (List.takeWhile_append_dropWhile (p := fun x => a.classOf x ≤ a.classOf c)).symm
  have states := states_setPlacement (some .waiting) record
  rw [AgreesIn, joinTail, lane_setWaiting, waiting_setWaiting]
  simpa [states] using joined

theorem laneOf_eq_some {a : Alloc} {g : GroupId} {c : CarrierId} (h : a.AgreesIn g) (hc : a.placementState c g = some .held) :
    ∃ l, a.laneOf g c = some l ∧ (a.lane g l).owner = some c := by
  obtain ⟨l, hl⟩ := (h.held c).1 hc
  cases found : a.laneOf g c with
  | none => exact absurd hl (by simpa using List.find?_eq_none.1 found l (List.mem_finRange l))
  | some m => exact ⟨m, rfl, by simpa using List.find?_some found⟩

/-- A HELD placement gives up its lane (R32). -/
theorem release_agrees {a : Alloc} {g : GroupId} {c : CarrierId} {st : Option PlacementState} (h : a.AgreesIn g)
    (hc : a.placementState c g = some .held) (xh : st ≠ some .held) (xw : st ≠ some .waiting) :
    ((a.releaseOf g c).setPlacement c g st).AgreesIn g := by
  obtain ⟨l, found, owner⟩ := laneOf_eq_some h hc
  have record := has_record_of_state (a := a) (c := c) (g := g) (by simp [hc])
  have released : a.releaseOf g c = a.putLane g l .default := by simp [releaseOf, found, release]
  rw [released, AgreesIn, states_setPlacement (a := a.putLane g l .default) _ record]
  simpa using h.vacate owner xh xw

/-- A WAITING placement leaves the list (R34). -/
theorem leave_agrees {a : Alloc} {g : GroupId} {c : CarrierId} {st : Option PlacementState} (h : a.AgreesIn g)
    (hc : a.placementState c g = some .waiting) (xh : st ≠ some .held) (xw : st ≠ some .waiting) :
    ((a.leave g c).setPlacement c g st).AgreesIn g := by
  have record := has_record_of_state (a := a) (c := c) (g := g) (by simp [hc])
  rw [AgreesIn, states_setPlacement (a := a.leave g c) _ record]
  simpa [Alloc.leave] using h.leave (by simp [hc]) xh xw

/-- One placement entered at activation (R13): it has a state, and no other carrier gains or loses one. -/
theorem enter_settles {a : Alloc} {g : GroupId} {c : CarrierId} (row : ProfileRow) (h : a.AgreesIn g)
    (hc : a.placementState c g = none) (record : ((a.ctb.get c).placements.get g).isSome) :
    (enter row c a g).AgreesIn g ∧ ((enter row c a g).placementState c g).isSome ∧
    ∀ d, d ≠ c → ((enter row c a g).placementState d g).isSome = (a.placementState d g).isSome := by
  unfold enter
  split
  · refine ⟨?_, by simp [placementState_setPlacement, record], fun d ne => by rw [placementState_setPlacement_ne _ _ _ ne]⟩
    rw [AgreesIn, states_setPlacement _ record]
    exact h.restate (by simp [hc]) (by simp [hc]) (by decide) (by decide)
  · have ran := arbiter_settles row (join_agrees h (by simp [hc]) (by simp [hc]) record)
    refine ⟨ran.1, ?_, fun d ne => ?_⟩
    · rw [ran.2, joinTail, placementState_setWaiting]
      simp [placementState_setPlacement, record]
    · rw [ran.2, joinTail, placementState_setWaiting, placementState_setPlacement_ne _ _ _ ne]

/-- The placement states around one that has lost its own. -/
theorem placementState_setPlacement_none (a : Alloc) (g : GroupId) (c : CarrierId) :
    (a.setPlacement c g none).placementState c g = none := by
  have states := congrFun (states_setPlacement_none a g c) c
  simpa using states

theorem placementState_releaseOf (a : Alloc) (g : GroupId) (c d : CarrierId) :
    (a.releaseOf g c).placementState d g = a.placementState d g := by
  unfold releaseOf; split <;> rfl

/-- One placement released at CAROFF (R14): it has no state, and no other carrier gains or loses one. -/
theorem exitGroup_settles {a : Alloc} {g : GroupId} (row : ProfileRow) (c : CarrierId) (h : a.AgreesIn g) :
    (exitGroup row c a g).AgreesIn g ∧ (exitGroup row c a g).placementState c g = none ∧
    ∀ d, d ≠ c → ((exitGroup row c a g).placementState d g).isSome = (a.placementState d g).isSome := by
  unfold exitGroup
  split
  · next hc =>
    have ran := arbiter_settles row (release_agrees h hc (st := none) (by decide) (by decide))
    refine ⟨ran.1, ?_, fun d ne => ?_⟩
    · rw [← Option.isNone_iff_eq_none, ← Option.not_isSome, ran.2, placementState_setPlacement_none]; rfl
    · rw [ran.2, placementState_setPlacement_ne _ _ _ ne, placementState_releaseOf]
  · next hc =>
    have ran := arbiter_settles row (leave_agrees h hc (st := none) (by decide) (by decide))
    refine ⟨ran.1, ?_, fun d ne => ?_⟩
    · rw [← Option.isNone_iff_eq_none, ← Option.not_isSome, ran.2, placementState_setPlacement_none]; rfl
    · rw [ran.2, placementState_setPlacement_ne _ _ _ ne]; rfl
  · next hh hw =>
    refine ⟨?_, placementState_setPlacement_none a g c, fun d ne => by rw [placementState_setPlacement_ne _ _ _ ne]⟩
    rw [AgreesIn, states_setPlacement_none]
    exact h.restate hh hw (by decide) (by decide)

theorem shedOne_settles {a : Alloc} {g : GroupId} (row : ProfileRow) (c : CarrierId) (h : a.AgreesIn g) :
    Settles g a (shedOne g row a c) := by
  have stated : ∀ b : Alloc, a.placementState c g ≠ none → (∀ d, b.placementState d g = a.placementState d g) →
      ((b.ctb.get c).placements.get g).isSome → ∀ d, ((b.setPlacement c g (some .shed)).placementState d g).isSome =
        (a.placementState d g).isSome := by
    intro b hc same record d
    obtain rfl | ne := eq_or_ne d c
    · simp [placementState_setPlacement, record, Option.isSome_iff_ne_none.2 hc]
    · rw [placementState_setPlacement_ne _ _ _ ne, same]
  unfold shedOne
  split
  · split
    · next hc =>
      have present : a.placementState c g ≠ none := by simp [hc]
      have same := placementState_releaseOf a g c
      exact ⟨release_agrees h hc (by decide) (by decide), stated _ present same (has_record_of_state (by rwa [same]))⟩
    · next hc =>
      have present : a.placementState c g ≠ none := by simp [hc]
      exact ⟨leave_agrees h hc (by decide) (by decide), stated (a.leave g c) present (fun _ => rfl) (has_record_of_state present)⟩
    · exact ⟨h, fun _ => rfl⟩
  · exact ⟨h, fun _ => rfl⟩

theorem unshedOne_settles {a : Alloc} {g : GroupId} (row : ProfileRow) (c : CarrierId) (h : a.AgreesIn g) :
    Settles g a (unshedOne g row a c) := by
  unfold unshedOne
  split
  · next hc =>
    have record := has_record_of_state (a := a) (c := c) (g := g) (by simp [hc.1])
    refine ⟨join_agrees h (by simp [hc.1]) (by simp [hc.1]) record, fun d => ?_⟩
    rw [joinTail, placementState_setWaiting]
    obtain rfl | ne := eq_or_ne d c
    · simp [placementState_setPlacement, record, hc.1]
    · rw [placementState_setPlacement_ne _ _ _ ne]
  · exact ⟨h, fun _ => rfl⟩

/-- What a fold of operations on one group settles. -/
theorem foldl_settles {β : Type} (g : GroupId) (f : Alloc → β → Alloc) (hf : ∀ a x, a.AgreesIn g → Settles g a (f a x)) (xs : List β) :
    ∀ a : Alloc, a.AgreesIn g → Settles g a (xs.foldl f a) := by
  induction xs with
  | nil => exact fun a h => ⟨h, fun _ => rfl⟩
  | cons x xs ih => exact fun a h => (hf a x h).trans (ih _ (hf a x h).1)

/-- The allocator's part of INCIDENT for one group (R40). -/
theorem incidentGroup_settles {a : Alloc} {g : GroupId} (row : ProfileRow) (h : a.AgreesIn g) :
    Settles g a (incidentGroup row a g) := by
  unfold incidentGroup
  split
  · exact ⟨h, fun _ => rfl⟩
  · have shed := foldl_settles g (shedOne g row) (fun _ c ok => shedOne_settles row c ok) (List.finRange 64) a h
    have unshed := foldl_settles g (unshedOne g row) (fun _ c ok => unshedOne_settles row c ok) (List.finRange 64) _ shed.1
    exact (shed.trans unshed).trans (arbiter_settles row unshed.1)

end Alloc
end Sys2Proof.Machine
end

section
/-! Operations that go over the groups of a set, one after the other: what they leave of each group, and that activation, release and INCIDENT
keep the agreement of R17 in the whole hub. -/
namespace Sys2Proof.Machine
namespace Alloc

/-- What the allocator holds of group `g` is the same: placement records, lanes and list, gates. -/
structure SameIn (g : GroupId) (a b : Alloc) : Prop where
  placement : ∀ c : CarrierId, (b.ctb.get c).placements.get g = (a.ctb.get c).placements.get g
  group : b.lal.get g = a.lal.get g
  gates : b.gates.get g = a.gates.get g

/-- Carrier states, fields, placement sets and trims, and group configurations are the same. -/
structure KeepsRecords (a b : Alloc) : Prop where
  record : ∀ c : CarrierId, (b.ctb.get c).state = (a.ctb.get c).state ∧ (b.ctb.get c).fields = (a.ctb.get c).fields
  trim : ∀ (c : CarrierId) (h : GroupId), ((b.ctb.get c).placements.get h).map (·.trim) = ((a.ctb.get c).placements.get h).map (·.trim)
  config : ∀ h : GroupId, (b.lal.get h).config = (a.lal.get h).config

variable {a b d : Alloc} {g h : GroupId} {c : CarrierId}

theorem SameIn.refl (g : GroupId) (a : Alloc) : SameIn g a a := ⟨fun _ => rfl, rfl, rfl⟩

theorem SameIn.trans (p : SameIn g a b) (q : SameIn g b d) : SameIn g a d :=
  ⟨fun c => (q.placement c).trans (p.placement c), q.group.trans p.group, q.gates.trans p.gates⟩

theorem SameIn.placementState (p : SameIn g a b) (c : CarrierId) : b.placementState c g = a.placementState c g := by
  unfold Alloc.placementState; rw [p.placement]

theorem SameIn.agreesIn (p : SameIn g a b) (ok : a.AgreesIn g) : b.AgreesIn g := by
  have states : (fun c => b.placementState c g) = fun c => a.placementState c g := funext p.placementState
  have lanes : b.lane g = a.lane g := by unfold lane; rw [p.group]
  have list : b.waiting g = a.waiting g := by unfold waiting; rw [p.group]
  rw [AgreesIn, states, lanes, list]
  exact ok

theorem KeepsRecords.refl (a : Alloc) : KeepsRecords a a := ⟨fun _ => ⟨rfl, rfl⟩, fun _ _ => rfl, fun _ => rfl⟩

theorem KeepsRecords.trans (p : KeepsRecords a b) (q : KeepsRecords b d) : KeepsRecords a d :=
  ⟨fun c => ⟨(q.record c).1.trans (p.record c).1, (q.record c).2.trans (p.record c).2⟩,
   fun c g => (q.trim c g).trans (p.trim c g), fun g => (q.config g).trans (p.config g)⟩

theorem KeepsRecords.isSome (p : KeepsRecords a b) (c : CarrierId) (g : GroupId) :
    ((b.ctb.get c).placements.get g).isSome = ((a.ctb.get c).placements.get g).isSome := by
  simpa using congrArg Option.isSome (p.trim c g)

theorem KeepsOutside.keepsRecords (k : KeepsOutside g a b) : KeepsRecords a b := ⟨k.record, k.trim, k.config⟩

theorem KeepsOutside.sameIn (k : KeepsOutside g a b) (ne : h ≠ g) : SameIn h a b :=
  ⟨fun c => k.placement c h ne, (k.other h ne).1, (k.other h ne).2⟩

section Fold

variable {f : Alloc → GroupId → Alloc} (keeps : ∀ a g, KeepsOutside g a (f a g))
include keeps

theorem foldl_keepsRecords (gs : List GroupId) : ∀ a : Alloc, KeepsRecords a (gs.foldl f a) := by
  induction gs with
  | nil => exact .refl
  | cons g gs ih => exact fun a => (keeps a g).keepsRecords.trans (ih _)

/-- A group that the walk does not come to stays as it was. -/
theorem foldl_sameIn (gs : List GroupId) : ∀ a : Alloc, g ∉ gs → SameIn g a (gs.foldl f a) := by
  induction gs with
  | nil => exact fun a _ => .refl g a
  | cons h gs ih =>
    intro a hg
    obtain ⟨ne, hg⟩ := not_or.1 (mt List.mem_cons.2 hg)
    exact ((keeps a h).sameIn ne).trans (ih _ hg)

/-- A group that the walk comes to is as its one operation leaves it, done on what the group was at the start. -/
theorem foldl_visit (gs : List GroupId) : ∀ a : Alloc, gs.Nodup → g ∈ gs →
    ∃ x, KeepsRecords a x ∧ SameIn g a x ∧ SameIn g (f x g) (gs.foldl f a) := by
  induction gs with
  | nil => exact fun _ _ hg => nomatch hg
  | cons h gs ih =>
    intro a nodup hg
    obtain ⟨fresh, nodup⟩ := List.nodup_cons.1 nodup
    obtain rfl | ne := eq_or_ne g h
    · exact ⟨a, .refl a, .refl g a, foldl_sameIn keeps gs _ fresh⟩
    · obtain ⟨x, records, before, after⟩ := ih (f a h) nodup ((List.mem_cons.1 hg).resolve_left ne)
      exact ⟨x, (keeps a h).keepsRecords.trans records, ((keeps a h).sameIn ne).trans before, after⟩

end Fold

theorem mem_groups : g ∈ a.groups c ↔ ((a.ctb.get c).placements.get g).isSome := by
  simp [groups, groupsOf]

theorem groups_nodup (a : Alloc) (c : CarrierId) : (a.groups c).Nodup := by
  unfold groups groupsOf
  exact (List.nodup_finRange 8).filter _

/-! ### The agreement of R17 in every group -/

/-- Every group agrees, and exactly the placements of ACTIVE carriers have a state (R16, R17). -/
structure Ok (a : Alloc) : Prop where
  agrees : ∀ g, a.AgreesIn g
  stated : ∀ c g, (a.placementState c g).isSome ↔ (a.ctb.get c).state = .active ∧ ((a.ctb.get c).placements.get g).isSome

/-- The state of one carrier moved: the first act of an activation, the last of a release. -/
def withState (a : Alloc) (c : CarrierId) (st : CarrierState) : Alloc :=
  { a with ctb := a.ctb.edit c fun r => { r with state := st } }

theorem state_withState (a : Alloc) (c e : CarrierId) (st : CarrierState) :
    ((a.withState c st).ctb.get e).state = if e = c then st else (a.ctb.get e).state := by
  obtain rfl | ne := eq_or_ne e c
  · simp [withState]
  · simp [withState, ne, ne.symm]

theorem fields_withState (a : Alloc) (c e : CarrierId) (st : CarrierState) :
    ((a.withState c st).ctb.get e).fields = (a.ctb.get e).fields := by
  obtain rfl | ne := eq_or_ne e c
  · simp [withState]
  · simp [withState, ne.symm]

theorem sameIn_withState (a : Alloc) (c : CarrierId) (st : CarrierState) (g : GroupId) : SameIn g a (a.withState c st) := by
  refine ⟨fun e => ?_, rfl, rfl⟩
  obtain rfl | ne := eq_or_ne e c
  · simp [withState]
  · simp [withState, ne.symm]

theorem activate_eq (a : Alloc) (row : ProfileRow) (c : CarrierId) :
    a.activate row c = ((a.withState c .active).groups c).foldl (enter row c) (a.withState c .active) := rfl

theorem deactivate_eq (a : Alloc) (row : ProfileRow) (c : CarrierId) :
    a.deactivate row c = ((a.groups c).foldl (exitGroup row c) a).withState c .defined := rfl

/-- INCIDENT keeps the agreement (R40). -/
theorem Ok.incident (ok : a.Ok) (row : ProfileRow) : (a.incident row).Ok := by
  have keeps : ∀ a g, KeepsOutside g a (incidentGroup row a g) := keeps_incidentGroup row
  have settled : ∀ g, Settles g a (a.incident row) := by
    intro g
    obtain ⟨x, -, before, after⟩ := foldl_visit keeps _ a (List.nodup_finRange 8) (List.mem_finRange g)
    have own := incidentGroup_settles row (before.agreesIn (ok.agrees g))
    refine ⟨after.agreesIn own.1, fun c => ?_⟩
    rw [Alloc.incident, after.placementState, own.2, before.placementState]
  have records : KeepsRecords a (a.incident row) := foldl_keepsRecords keeps _ a
  refine ⟨fun g => (settled g).1, fun c g => ?_⟩
  rw [(settled g).2, records.isSome, (records.record c).1]
  exact ok.stated c g

/-- An activation keeps the agreement (R13). -/
theorem Ok.activate (ok : a.Ok) (row : ProfileRow) (idle : (a.ctb.get c).state ≠ .active) : (a.activate row c).Ok := by
  let b := a.withState c .active
  have same : ∀ g, SameIn g a b := sameIn_withState a c .active
  have agrees : ∀ g, b.AgreesIn g := fun g => (same g).agreesIn (ok.agrees g)
  have bare : ∀ g, b.placementState c g = none := by
    intro g
    rw [(same g).placementState, ← Option.not_isSome_iff_eq_none, ok.stated]
    exact fun h => idle h.1
  have active : (b.ctb.get c).state = .active := by rw [state_withState, if_pos rfl]
  have other : ∀ e g, e ≠ c → ((b.placementState e g).isSome ↔
      (b.ctb.get e).state = .active ∧ ((b.ctb.get e).placements.get g).isSome) := by
    intro e g ne
    rw [(same g).placementState, (same g).placement, state_withState, if_neg ne]
    exact ok.stated e g
  have keeps : ∀ a g, KeepsOutside g a (enter row c a g) := keeps_enter row c
  have each : ∀ g, (a.activate row c).AgreesIn g ∧ ∀ e, ((a.activate row c).placementState e g).isSome ↔
      (b.ctb.get e).state = .active ∧ ((b.ctb.get e).placements.get g).isSome := by
    intro g
    by_cases hg : g ∈ b.groups c
    · obtain ⟨x, seen, before, after⟩ := foldl_visit keeps _ b (b.groups_nodup c) hg
      have record := mem_groups.1 hg
      have own := enter_settles row (before.agreesIn (agrees g)) ((before.placementState c).trans (bare g))
        (by rwa [seen.isSome])
      refine ⟨after.agreesIn own.1, fun e => ?_⟩
      rw [activate_eq, after.placementState]
      obtain rfl | ne := eq_or_ne e c
      · exact iff_of_true own.2.1 ⟨active, record⟩
      · rw [own.2.2 e ne, before.placementState, other e g ne]
    · have untouched : SameIn g b (a.activate row c) := foldl_sameIn keeps _ b hg
      refine ⟨untouched.agreesIn (agrees g), fun e => ?_⟩
      rw [untouched.placementState]
      obtain rfl | ne := eq_or_ne e c
      · simp [bare, mt mem_groups.2 hg]
      · exact other e g ne
  have records : KeepsRecords b (a.activate row c) := foldl_keepsRecords keeps _ b
  refine ⟨fun g => (each g).1, fun e g => ?_⟩
  rw [(each g).2, (records.record e).1, records.isSome]

/-- The walk of a release over its carrier's groups (R14): every group agrees, and of all placement states only the carrier's own go. -/
theorem Ok.exits (ok : a.Ok) (row : ProfileRow) (c : CarrierId) (g : GroupId) :
    let b := (a.groups c).foldl (exitGroup row c) a
    b.AgreesIn g ∧ b.placementState c g = none ∧ ∀ e, e ≠ c → (b.placementState e g).isSome = (a.placementState e g).isSome := by
  have keeps : ∀ a g, KeepsOutside g a (exitGroup row c a g) := keeps_exitGroup row c
  by_cases hg : g ∈ a.groups c
  · obtain ⟨x, -, before, after⟩ := foldl_visit keeps _ a (a.groups_nodup c) hg
    obtain ⟨agrees, gone, others⟩ := exitGroup_settles row c (before.agreesIn (ok.agrees g))
    refine ⟨after.agreesIn agrees, (after.placementState c).trans gone, fun e ne => ?_⟩
    rw [after.placementState, others e ne, before.placementState]
  · have untouched := foldl_sameIn keeps _ a hg
    refine ⟨untouched.agreesIn (ok.agrees g), ?_, fun e _ => by rw [untouched.placementState]⟩
    rw [untouched.placementState, ← Option.not_isSome_iff_eq_none, ok.stated]
    exact fun h => hg (mem_groups.2 h.2)

/-- A release keeps the agreement (R14). -/
theorem Ok.deactivate (ok : a.Ok) (row : ProfileRow) (c : CarrierId) : (a.deactivate row c).Ok := by
  have records : KeepsRecords a ((a.groups c).foldl (exitGroup row c) a) := foldl_keepsRecords (keeps_exitGroup row c) _ a
  have same := sameIn_withState ((a.groups c).foldl (exitGroup row c) a) c .defined
  rw [deactivate_eq]
  refine ⟨fun g => (same g).agreesIn (ok.exits row c g).1, fun e g => ?_⟩
  obtain ⟨-, gone, others⟩ := ok.exits row c g
  rw [(same g).placementState, (same g).placement, state_withState]
  obtain rfl | ne := eq_or_ne e c
  · simp [gone]
  · rw [others e ne, ok.stated, if_neg ne, (records.record e).1, records.isSome]

/-- A carrier whose placements have no state neither waits nor owns a lane (R17). -/
theorem AgreesIn.absent (ok : a.AgreesIn g) (stateless : a.placementState c g = none) :
    c ∉ a.waiting g ∧ ∀ l, (a.lane g l).owner ≠ some c := by
  refine ⟨fun hc => ?_, fun l hl => ?_⟩
  · have waits := (ok.waiting c).2 hc
    rw [stateless] at waits; cases waits
  · have held := (ok.held c).2 ⟨l, hl⟩
    rw [stateless] at held; cases held

end Alloc
end Sys2Proof.Machine
end

section
/-! Every way in which a step can change the carrier table and the groups. A law of these two tables is kept by every step once it is kept by
each of these moves. -/
namespace Sys2Proof.Machine

/-- The carrier table and the groups. -/
structure Places where
  ctb : Table Carrier 64
  lal : Table Group 8

/-- The two tables in the hub. -/
def State.places (s : State) : Places := ⟨s.ctb, s.lal⟩

/-- The two tables as the lane allocator works on them. -/
def Alloc.places (a : Alloc) : Places := ⟨a.ctb, a.lal⟩

/-- A carrier that is not ACTIVE and whose placements have no state, as every reset and load leaves it (R20, R21). -/
def Carrier.Unplaced (r : Carrier) : Prop := r.state ≠ .active ∧ ∀ g : GroupId, (r.placements.get g).bind (·.state) = none

/-- One change of the carrier table and the groups. -/
inductive CarrierMove : Places → Places → Prop
  /-- CARSET on a carrier that is not ACTIVE (R9). -/
  | defined {ctb lal} (c : CarrierId) (f : CarrierFields) (groups : Nat) : (ctb.get c).state ≠ .active →
      CarrierMove ⟨ctb, lal⟩ ⟨ctb.put c ⟨.defined, f, placementsFor (ctb.get c).placements groups⟩, lal⟩
  /-- CARSET on an ACTIVE carrier: the uplink destination is structural (R10). -/
  | tuned {ctb lal} (c : CarrierId) (f : CarrierFields) : f.ulDest = (ctb.get c).fields.ulDest →
      CarrierMove ⟨ctb, lal⟩ ⟨ctb.put c { ctb.get c with fields := f }, lal⟩
  /-- CARCLR (R15). -/
  | cleared {ctb lal} (c : CarrierId) : (ctb.get c).state ≠ .active → CarrierMove ⟨ctb, lal⟩ ⟨ctb.put c .default, lal⟩
  /-- TRIM (R18). -/
  | trimmed {ctb lal} (c : CarrierId) (g : GroupId) (q : Placement) (v : Nat) : (ctb.get c).placements.get g = some q →
      CarrierMove ⟨ctb, lal⟩
        ⟨ctb.put c { ctb.get c with placements := (ctb.get c).placements.put g (some { q with trim := v }) }, lal⟩
  /-- CARON, and the activations of a start-up (R13, R20, R21). -/
  | activated (a : Alloc) (row : ProfileRow) (c : CarrierId) : a.activationRefusal c = none →
      CarrierMove a.places (a.activate row c).places
  /-- CAROFF (R14). -/
  | deactivated (a : Alloc) (row : ProfileRow) (c : CarrierId) : CarrierMove a.places (a.deactivate row c).places
  /-- INCIDENT (R40). -/
  | incident (a : Alloc) (row : ProfileRow) : CarrierMove a.places (a.incident row).places
  /-- GRPSET (R24). -/
  | configured {ctb lal} (g : GroupId) (cfg : GroupConfig) :
      CarrierMove ⟨ctb, lal⟩ ⟨ctb, lal.edit g fun x => { x with config := cfg }⟩
  /-- LANE_GUARD_EXPIRY (R31). -/
  | expired {ctb lal} (g : GroupId) (l : LaneId) : ((lal.get g).lanes.get l).expiring →
      CarrierMove ⟨ctb, lal⟩ ⟨ctb, lal.edit g fun x => { x with lanes := x.lanes.edit l Lane.expire }⟩
  /-- The guard step and the coverage of a slot (R31, R154). -/
  | slotBegun {ctb lal} (b : BreakIn) : CarrierMove ⟨ctb, lal⟩ ⟨ctb, markLanes ctb b (guardStep lal)⟩
  /-- A reset or a settings load (R20, R21, R27, R46). -/
  | reset (p : Places) (ctb : Table Carrier 64) (config : GroupId → GroupConfig) : (∀ c, (ctb.get c).Unplaced) →
      CarrierMove p ⟨ctb, .make fun g => .empty (config g)⟩

/-- Changes one after the other. -/
abbrev CarrierMoves : Places → Places → Prop := Relation.ReflTransGen CarrierMove

theorem CarrierMoves.of_eq {p q : Places} (h : q = p) : CarrierMoves p q := h ▸ .refl

/-! ### The carrier requests -/

theorem carset_moves (a : CarsetArgs) (s : State) : CarrierMoves s.places (carset a s).state.places := by
  unfold carset
  split
  · next c v _ _ =>
    dsimp only
    split
    · split
      · next same =>
        have dest : (carsetFields a v).ulDest = (s.ctb.get c).fields.ulDest := by
          simp only [sameStructure, Bool.and_eq_true, decide_eq_true_eq] at same
          obtain ⟨⟨-, dest⟩, -⟩ := same
          exact dest.symm
        exact .single (.tuned c _ dest)
      · exact .refl
    · next idle => exact .single (.defined c _ _ idle)
  · exact .refl

theorem caron_moves (n : Nat) (s : State) : CarrierMoves s.places (caron n s).state.places := by
  unfold caron
  split
  · exact .refl
  · next c _ =>
    split
    · exact .refl
    · next pass => exact .single (.activated s.alloc _ c pass)

theorem caroff_moves (n : Nat) (s : State) : CarrierMoves s.places (caroff n s).state.places := by
  unfold caroff
  split
  · exact .refl
  · next c _ =>
    split
    · exact .refl
    · exact .single (.deactivated s.alloc _ c)

theorem carclr_moves (n : Nat) (s : State) : CarrierMoves s.places (carclr n s).state.places := by
  unfold carclr
  split
  · exact .refl
  · next c _ =>
    split
    · exact .refl
    · exact .refl
    · next idle => exact .single (.cleared c (by rw [idle]; decide))

theorem trim_moves (n gn v : Nat) (s : State) : CarrierMoves s.places (trim n gn v s).state.places := by
  unfold trim
  split
  · next c g _ _ =>
    dsimp only
    split
    · exact .refl
    · next q record =>
      split
      · exact .refl
      · exact .single (.trimmed c g q _ record)
  · exact .refl

/-! ### Groups and levels -/

theorem grpset_moves (a : GrpsetArgs) (s : State) : CarrierMoves s.places (grpset a s).state.places := by
  unfold grpset
  split
  · next g form _ _ =>
    split
    · exact .refl
    · dsimp only
      split <;> exact .single (.configured g _)
  · exact .refl

theorem incidentEvent_moves (cause : IncidentCause) (mask : Nat) (s : State) :
    CarrierMoves s.places (incidentEvent cause mask s).places := by
  have places : (incidentEvent cause mask s).places = (s.alloc.incident s.ict.row).places := by
    rw [incidentEvent_eq, State.places, State.withBku_ctb, State.withBku_lal, State.withAlloc_ctb, State.withAlloc_lal]
    rfl
  rw [places]
  exact .single (.incident s.alloc s.ict.row)

theorem changeLevels_moves (cause : IncidentCause) (i : Incident) (s : State) :
    CarrierMoves s.places (changeLevels cause i s).places := by
  unfold changeLevels
  dsimp only
  split
  · exact .refl
  · exact incidentEvent_moves cause _ { s with ict := i }

theorem incclr_moves (s : State) : CarrierMoves s.places (incclr s).state.places := by
  unfold incclr
  split
  · exact .refl
  · exact changeLevels_moves _ _ s

theorem profset_moves (a : ProfsetArgs) (s : State) : CarrierMoves s.places (profset a s).state.places := by
  have event : ∀ i, CarrierMoves s.places (incidentEvent .profile s.ict.row.announceMask { s with ict := i }).places :=
    fun i => incidentEvent_moves _ _ { s with ict := i }
  unfold profset
  split
  · dsimp only
    split
    · exact event _
    · exact .refl
  · exact .refl

/-! ### Requests that touch neither table -/

theorem rdrecOf_state (v : State) (sel : Selector) (part : Nat) (s : State) : (rdrecOf v sel part s).state = s := by
  unfold rdrecOf
  split
  · rfl
  · split <;> rfl

theorem sprst_places (n : Nat) (s : State) : (sprst n s).state.places = s.places := by
  unfold sprst
  split
  · rfl
  · split <;> rfl

theorem annc_places (a : AnncArgs) (s : State) : (annc a s).state.places = s.places := by
  unfold annc
  split
  · rfl
  · repeat (split; · rfl)
    rfl

theorem ancan_places (n : Nat) (s : State) : (ancan n s).state.places = s.places := by
  unfold ancan
  split
  · rfl
  · split <;> rfl

theorem pgopen_places (n : Nat) (s : State) : (pgopen n s).state.places = s.places := by
  unfold pgopen
  split <;> rfl

theorem pgdata_places (off : Nat) (bs : List Byte) (s : State) : (pgdata off bs s).state.places = s.places := by
  unfold pgdata
  split
  · rfl
  · split
    · rfl
    · split <;> rfl

theorem pgcommit_places (s : State) : (pgcommit s).state.places = s.places := by
  unfold pgcommit
  split
  · rfl
  · split <;> rfl

theorem blkerase_places (n : Nat) (s : State) : (blkerase n s).state.places = s.places := by
  unfold blkerase
  split
  · rfl
  · split <;> rfl

theorem blkguard_places (n bar : Nat) (s : State) : (blkguard n bar s).state.places = s.places := by
  unfold blkguard
  split
  · rfl
  · split
    · rfl
    · split <;> rfl
  · rfl

theorem msgdef_places (a : MsgdefArgs) (s : State) : (msgdef a s).state.places = s.places := by
  unfold msgdef
  split <;> rfl

theorem msgclr_places (n : Nat) (s : State) : (msgclr n s).state.places = s.places := by
  unfold msgclr
  split
  · rfl
  · split <;> rfl

theorem trksel_places (n : Nat) (s : State) : (trksel n s).state.places = s.places := by
  unfold trksel
  split
  · rfl
  · dsimp only
    split
    · rfl
    · split <;> rfl

theorem save_places (s : State) : (save s).state.places = s.places := by
  unfold save
  split <;> rfl

theorem restart_places (n : Nat) (s : State) : (restart n s).state.places = s.places := by
  unfold restart
  split
  · rfl
  · split <;> rfl

/-! ### Any request -/

theorem requestAct_moves (v : State → State) (r : Request) (s : State) : CarrierMoves s.places (requestAct v r s).state.places := by
  cases r with
  | rdrec sel part => exact .of_eq (congrArg State.places (rdrecOf_state (v s) sel part s))
  | carset a => exact carset_moves a s
  | caron n => exact caron_moves n s
  | caroff n => exact caroff_moves n s
  | carclr n => exact carclr_moves n s
  | trim n g x => exact trim_moves n g x s
  | grpset a => exact grpset_moves a s
  | sprst n => exact .of_eq (sprst_places n s)
  | incset n => exact changeLevels_moves _ _ s
  | incclr => exact incclr_moves s
  | profset a => exact profset_moves a s
  | annc a => exact .of_eq (annc_places a s)
  | ancan n => exact .of_eq (ancan_places n s)
  | voxset a => exact .refl
  | pgopen n => exact .of_eq (pgopen_places n s)
  | pgdata off bs => exact .of_eq (pgdata_places off bs s)
  | pgcommit => exact .of_eq (pgcommit_places s)
  | blkerase n => exact .of_eq (blkerase_places n s)
  | blkguard n bar => exact .of_eq (blkguard_places n bar s)
  | msgdef a => exact .of_eq (msgdef_places a s)
  | msgclr n => exact .of_eq (msgclr_places n s)
  | trksel n => exact .of_eq (trksel_places n s)
  | timset limit x => exact .refl
  | save => exact .of_eq (save_places s)
  | restart n => exact .of_eq (restart_places n s)
  | causeclr => exact .refl

theorem serve_moves (v : State → State) (p : TrunkId) (tag : Nat) (r : Request) (s : State) :
    CarrierMoves s.places (serve p tag (requestCode r) (requestAct v r) s).places := by
  unfold serve
  obtain ⟨-, refused⟩ | ⟨-, -, -, refused⟩ | ⟨-, -, heard⟩ := check_cases p tag (requestCode r) (requestAct v r) s
  · rw [refused]; exact .refl
  · rw [refused]; exact .refl
  · rw [heard]; exact requestAct_moves v r s

/-- A request as a command of its own. -/
theorem requestCommand_moves {p : TrunkId} {tag : Nat} {s t : State} (r : Request)
    (h : requestCommand p tag (requestCode r) (requestAct id r) s = .next t) : CarrierMoves s.places t.places := by
  cases h
  split
  · exact .refl
  · exact serve_moves id p tag r s

/-- An event of the hub's own. -/
theorem eventCommand_moves {act : State → State} {s t : State} (moves : CarrierMoves s.places (act s).places)
    (h : eventCommand act s = .next t) : CarrierMoves s.places t.places := by
  cases h
  split
  · exact .refl
  · exact moves

/-! ### Events that touch neither table -/

theorem holdoverExpiry_places (s : State) : (holdoverExpiry s).places = s.places := by
  unfold holdoverExpiry
  split <;> rfl

theorem overBudget_places (g : GroupId) (s : State) : (overBudget g s).places = s.places := by
  unfold overBudget
  dsimp only
  split <;> rfl

theorem missLimitReached_places (g : GroupId) (k : Pos) (sd : Side) (s : State) : (missLimitReached g k sd s).places = s.places := by
  unfold missLimitReached
  dsimp only
  split <;> rfl

theorem hangExpiry_places (g : GroupId) (l : LaneId) (k : Pos) (s : State) : (hangExpiry g l k s).places = s.places := by
  unfold hangExpiry
  dsimp only
  split <;> rfl

theorem fadeEnd_places (id : PlayerId) (s : State) : (fadeEnd id s).places = s.places := by
  unfold fadeEnd
  dsimp only
  split
  · split <;> rfl
  · split <;> rfl
  · rfl

theorem gapEnd_places (id : PlayerId) (s : State) : (gapEnd id s).places = s.places := by
  unfold gapEnd
  dsimp only
  split <;> rfl

theorem liveSpeechLoss_places (id : PlayerId) (s : State) : (liveSpeechLoss id s).places = s.places := by
  unfold liveSpeechLoss
  dsimp only
  split <;> rfl

theorem spanUplinkFrameArrival_places (p : SpanId) (bs : List Byte) (s : State) :
    (spanUplinkFrameArrival p bs s).places = s.places := by
  unfold spanUplinkFrameArrival
  split <;> rfl

theorem storeProgramCompletion_places (r : StoreResult) (s : State) : (storeProgramCompletion r s).places = s.places := by
  unfold storeProgramCompletion
  split <;> rfl

theorem storeEraseCompletion_places (r : StoreResult) (s : State) : (storeEraseCompletion r s).places = s.places := by
  unfold storeEraseCompletion
  split <;> rfl

theorem settingsSaveCompletion_places (r : StoreResult) (s : State) : (settingsSaveCompletion r s).places = s.places := by
  unfold settingsSaveCompletion
  split <;> rfl

theorem laneGuardExpiry_moves (g : GroupId) (l : LaneId) (s : State) : CarrierMoves s.places (laneGuardExpiry g l s).places := by
  unfold laneGuardExpiry
  split
  · next due => exact .single (.expired g l due)
  · exact .refl

/-! ### Resets and start-up -/

theorem barePlacements_state (t : Table (Option Placement) 8) (g : GroupId) : ((barePlacements t).get g).bind (·.state) = none := by
  cases h : t.get g <;> simp [barePlacements, Placement.bare, h]

theorem unplaced_default : Carrier.default.Unplaced := by
  refine ⟨by decide, fun g => ?_⟩
  simp [Carrier.default]

theorem unplaced_kept (r : Carrier) : r.kept.Unplaced := by
  refine ⟨?_, fun g => barePlacements_state r.placements g⟩
  unfold Carrier.kept
  dsimp only
  split
  · decide
  · assumption

theorem unplaced_loaded (r : Carrier) : r.loaded.Unplaced := by
  unfold Carrier.loaded
  split
  · exact unplaced_default
  · exact ⟨by simp, fun g => barePlacements_state r.placements g⟩

theorem resetBlocks_moves (keep : Bool) (causes : CauseRecord) (s : State) :
    CarrierMoves s.places (resetBlocks keep causes s).places := by
  cases keep with
  | false => exact .single (.reset _ (.fill .default) (fun _ => .default) fun c => by rw [Table.get_fill]; exact unplaced_default)
  | true =>
    exact .single (.reset _ (.make fun c => (s.ctb.get c).kept) (configOf s.lal) fun c => by
      rw [Table.get_make]; exact unplaced_kept _)

theorem activateAll_moves (row : ProfileRow) (ids : List CarrierId) : ∀ (a : Alloc) (made refused : Nat),
    CarrierMoves a.places (Alloc.activateAll row ids (a, made, refused)).1.places := by
  induction ids with
  | nil => exact fun _ _ _ => .refl
  | cons c ids ih =>
    intro a made refused
    unfold Alloc.activateAll
    split
    · next pass => exact .head (.activated a row c pass) (ih _ _ _)
    · exact ih _ _ _

theorem startUp_moves (outcome : SettingsOutcome) (ids : List CarrierId) (s : State) :
    CarrierMoves s.places (startUp outcome ids s).places :=
  activateAll_moves _ ids (s.raise (.start s.mga.causes outcome 0 0)).alloc 0 0

theorem startUpLoading_moves (s : State) : CarrierMoves s.places (startUpLoading s).places := by
  unfold startUpLoading
  split
  · exact startUp_moves _ _ s
  · next x _ =>
    have loaded : CarrierMoves s.places (s.load x).places :=
      .single (.reset _ (.make fun c => (x.carriers.get c).loaded) x.groups.get fun c => by
        rw [Table.get_make]; exact unplaced_loaded _)
    exact loaded.trans (startUp_moves _ _ _)

theorem restartNow_moves (f : RestartForm) (s : State) : CarrierMoves s.places (restartNow f s).places := by
  cases f with
  | keep => exact (resetBlocks_moves true _ s).trans (startUp_moves _ _ _)
  | reload => exact (resetBlocks_moves false _ s).trans (startUpLoading_moves _)

theorem restartTakesEffect_moves (s : State) : CarrierMoves s.places (restartTakesEffect s).places := by
  unfold restartTakesEffect
  split
  · exact restartNow_moves _ s
  · exact .refl

theorem lineReset_moves (s : State) : CarrierMoves s.places (lineReset s).places := by
  unfold lineReset
  split
  · exact .refl
  · exact resetBlocks_moves false s.mga.causes.lineReset s

theorem leaveReset_moves (s : State) : CarrierMoves s.places (leaveReset s).places := by
  unfold leaveReset
  split
  · exact .refl
  · exact startUpLoading_moves s

theorem resetInputRelease_moves (s : State) : CarrierMoves s.places (resetInputRelease s).places := by
  unfold resetInputRelease
  split
  · exact leaveReset_moves { s with pins := { s.pins with resetInput := false } }
  · exact .refl

theorem suppliesSteady_moves (s : State) : CarrierMoves s.places (suppliesSteady s).places := by
  unfold suppliesSteady
  split
  · exact leaveReset_moves { s with pins := { s.pins with powerHold := false } }
  · exact .refl

/-! ### The slot event -/

theorem closeSlot_places (n : FrameNo) (ctb : Table Carrier 64) (lanes : Table Group 8) (s : State) :
    (closeSlot n ctb lanes s).places = s.places := by
  unfold closeSlot
  dsimp only
  split <;> rfl

theorem spanWork_places (i : MixInput) (s : State) : (spanWork i s).places = s.places := closeSlot_places _ _ _ _

/-- The works of a slot, in any order, touch neither table. -/
theorem works_places (o : WorkOrder) (i : MixInput) (s : State) : (works o i s).places = s.places := by
  have mixer : ∀ t, (mixerWork i t).places = t.places := fun _ => rfl
  have players : ∀ t, (playerWork i t).places = t.places := fun _ => rfl
  cases o <;> simp only [works, mixer, players, spanWork_places]

theorem takeCell_moves (v : State → State) (p : TrunkId) (cell : List Byte) (s : State) :
    CarrierMoves s.places (takeCell v p cell s).places := by
  unfold takeCell
  split
  · exact .refl
  · exact .refl
  · exact .refl
  · exact serve_moves v p _ _ s

theorem takeFrameCell_moves (v : State → State) (p : TrunkId) (f : Option (List Byte)) (s : State) :
    CarrierMoves s.places (takeFrameCell v p f s).places := by
  cases f with
  | none => exact .refl
  | some bs => exact takeCell_moves v p _ s

/-- The line sample and the two cells, in any order. -/
theorem tail_moves (o : TailOrder) {line reqA reqB : State → State} (hl : ∀ s, CarrierMoves s.places (line s).places)
    (ha : ∀ s, CarrierMoves s.places (reqA s).places) (hb : ∀ s, CarrierMoves s.places (reqB s).places) (s : State) :
    CarrierMoves s.places (tail o line reqA reqB s).places := by
  have chain : ∀ {x y z : State → State}, (∀ s, CarrierMoves s.places (x s).places) → (∀ s, CarrierMoves s.places (y s).places) →
      (∀ s, CarrierMoves s.places (z s).places) → CarrierMoves s.places (z (y (x s))).places :=
    fun hx hy hz => ((hx s).trans (hy _)).trans (hz _)
  cases o with
  | lineAB => exact chain hl ha hb
  | lineBA => exact chain hl hb ha
  | aLineB => exact chain ha hl hb
  | bLineA => exact chain hb hl ha
  | abLine => exact chain ha hb hl
  | baLine => exact chain hb ha hl

theorem slotEvent_moves (n : FrameNo) (line : Bool) (ord : SlotOrder) (s : State) :
    CarrierMoves s.places (slotEvent n line ord s).places := by
  let c := openSlot n ord s
  let i := slotInput n s c.2.active
  have opened : CarrierMoves s.places c.1.places := .single (.slotBegun s.bku)
  have worked : (sendSpans i (works ord.works i c.1)).places = c.1.places := works_places _ _ _
  have ended := tail_moves ord.tail (fun t => changeLevels_moves .line (t.ict.sample n line) t)
    (takeFrameCell_moves (earlyView ord s) .a c.2.frameA) (takeFrameCell_moves (earlyView ord s) .b c.2.frameB)
    (sendSpans i (works ord.works i c.1))
  rw [worked] at ended
  exact opened.trans ended

theorem slot_moves (line : Bool) (ord : SlotOrder) (s : State) : CarrierMoves s.places (slot line ord s).places := by
  unfold slot
  split
  · exact restartNow_moves _ s
  · exact slotEvent_moves _ _ _ s

/-! ### The step -/

/-- What any command can do to the two tables. -/
theorem exec_moves {i : Instr} {s t : State} (h : exec i s = .next t) : CarrierMoves s.places t.places := by
  cases i with
  | slot line order => exact eventCommand_moves (slot_moves line order s) h
  | holdoverExpiry => exact eventCommand_moves (.of_eq (holdoverExpiry_places s)) h
  | laneGuardExpiry g l => exact eventCommand_moves (laneGuardExpiry_moves g l s) h
  | overBudget g => exact eventCommand_moves (.of_eq (overBudget_places g s)) h
  | missLimitReached g k sd => exact eventCommand_moves (.of_eq (missLimitReached_places g k sd s)) h
  | hangExpiry g l k => exact eventCommand_moves (.of_eq (hangExpiry_places g l k s)) h
  | fadeEnd p => exact eventCommand_moves (.of_eq (fadeEnd_places p s)) h
  | gapEnd p => exact eventCommand_moves (.of_eq (gapEnd_places p s)) h
  | liveSpeechLoss p => exact eventCommand_moves (.of_eq (liveSpeechLoss_places p s)) h
  | trunkFrameArrival p f => exact eventCommand_moves (act := trunkFrameArrival p f) .refl h
  | spanUplinkFrameArrival p f => exact eventCommand_moves (.of_eq (spanUplinkFrameArrival_places p f s)) h
  | rdrec p tag sel part => exact requestCommand_moves (.rdrec sel part) h
  | carset p tag a => exact requestCommand_moves (.carset a) h
  | caron p tag n => exact requestCommand_moves (.caron n) h
  | caroff p tag n => exact requestCommand_moves (.caroff n) h
  | carclr p tag n => exact requestCommand_moves (.carclr n) h
  | trim p tag n g v => exact requestCommand_moves (.trim n g v) h
  | grpset p tag a => exact requestCommand_moves (.grpset a) h
  | sprst p tag n => exact requestCommand_moves (.sprst n) h
  | incset p tag n => exact requestCommand_moves (.incset n) h
  | incclr p tag => exact requestCommand_moves .incclr h
  | profset p tag a => exact requestCommand_moves (.profset a) h
  | annc p tag a => exact requestCommand_moves (.annc a) h
  | ancan p tag n => exact requestCommand_moves (.ancan n) h
  | voxset p tag a => exact requestCommand_moves (.voxset a) h
  | pgopen p tag n => exact requestCommand_moves (.pgopen n) h
  | pgdata p tag off bs => exact requestCommand_moves (.pgdata off bs) h
  | pgcommit p tag => exact requestCommand_moves .pgcommit h
  | blkerase p tag n => exact requestCommand_moves (.blkerase n) h
  | blkguard p tag n bar => exact requestCommand_moves (.blkguard n bar) h
  | msgdef p tag a => exact requestCommand_moves (.msgdef a) h
  | msgclr p tag n => exact requestCommand_moves (.msgclr n) h
  | trksel p tag n => exact requestCommand_moves (.trksel n) h
  | timset p tag limit v => exact requestCommand_moves (.timset limit v) h
  | save p tag => exact requestCommand_moves .save h
  | restart p tag n => exact requestCommand_moves (.restart n) h
  | causeclr p tag => exact requestCommand_moves .causeclr h
  | storeProgramCompletion r => exact eventCommand_moves (.of_eq (storeProgramCompletion_places r s)) h
  | storeEraseCompletion r => exact eventCommand_moves (.of_eq (storeEraseCompletion_places r s)) h
  | settingsSaveCompletion r => exact eventCommand_moves (.of_eq (settingsSaveCompletion_places r s)) h
  | powerOn => cases h; exact resetBlocks_moves false .poweredOn s
  | lineReset => cases h; exact lineReset_moves s
  | restartTakesEffect => exact eventCommand_moves (restartTakesEffect_moves s) h
  | resetInputRelease => cases h; exact resetInputRelease_moves s
  | suppliesSteady => cases h; exact suppliesSteady_moves s

theorem step_moves {s t : State} (h : step s = .next t) : CarrierMoves s.places t.places := by
  unfold step at h
  split at h
  · cases h; exact .refl
  · next c rest _ => exact exec_moves (s := { s with pending := rest }) h

/-- A law of the two tables that every move keeps is kept by every step. -/
theorem keptByStep_of_moves {law : Places → Prop} (moves : ∀ {p q}, CarrierMove p q → law p → law q) :
    keptByStep fun s => law s.places := by
  have chain : ∀ {p q}, CarrierMoves p q → law p → law q := by
    intro p q h hp
    induction h with
    | refl => exact hp
    | tail _ move ih => exact moves move ih
  exact fun s t hs h => chain (step_moves h) hs

end Sys2Proof.Machine
end

section
/-! The two laws of the carrier table: distinct uplink destinations (R12) and placements, lanes and lists in agreement (R17), each kept by every
move of the tables. -/
namespace Sys2Proof.Machine

/-! ### What activation and release do to records -/

namespace Alloc

variable (a : Alloc) (row : ProfileRow) (c e : CarrierId)

theorem activate_records : KeepsRecords (a.withState c .active) (a.activate row c) :=
  foldl_keepsRecords (keeps_enter row c) _ _

theorem exits_records : KeepsRecords a ((a.groups c).foldl (exitGroup row c) a) :=
  foldl_keepsRecords (keeps_exitGroup row c) _ _

theorem state_activate : ((a.activate row c).ctb.get e).state = if e = c then .active else (a.ctb.get e).state := by
  rw [((activate_records a row c).record e).1, state_withState]

theorem fields_activate : ((a.activate row c).ctb.get e).fields = (a.ctb.get e).fields := by
  rw [((activate_records a row c).record e).2, fields_withState]

theorem state_deactivate : ((a.deactivate row c).ctb.get e).state = if e = c then .defined else (a.ctb.get e).state := by
  rw [deactivate_eq, state_withState, ((exits_records a row c).record e).1]

theorem fields_deactivate : ((a.deactivate row c).ctb.get e).fields = (a.ctb.get e).fields := by
  rw [deactivate_eq, fields_withState, ((exits_records a row c).record e).2]

/-- The checks of R12, from the second on, in the order in which they are made. -/
theorem activationRefusal_eq {a : Alloc} {c : CarrierId} :
    a.activationRefusal c =
      if (a.ctb.get c).state ≠ .defined then some .state
      else if ¬∃ g, ((a.ctb.get c).placements.get g).isSome then some .range
      else if ¬∀ g, ((a.ctb.get c).placements.get g).isSome → (a.lal.get g).config.form ≠ .unused then some .state
      else if ¬∀ d, d ≠ c → (a.ctb.get d).state = .active → (a.ctb.get c).fields.ulDest.isSome →
        (a.ctb.get d).fields.ulDest ≠ (a.ctb.get c).fields.ulDest then some .inUse
      else none := by
  have empty : a.groups c = [] ↔ ¬∃ g, ((a.ctb.get c).placements.get g).isSome := by
    simp only [List.eq_nil_iff_forall_not_mem, mem_groups, not_exists]
  have unserved : ((a.groups c).any fun g => (a.lal.get g).config.form = .unused) = true ↔
      ¬∀ g, ((a.ctb.get c).placements.get g).isSome → (a.lal.get g).config.form ≠ .unused := by
    simp only [List.any_eq_true, mem_groups, decide_eq_true_eq, not_forall, ne_eq, not_not, exists_prop]
  have taken : ((a.ctb.get c).fields.ulDest.isSome && (List.finRange 64).any fun d =>
      d != c && (a.ctb.get d).state = .active && (a.ctb.get d).fields.ulDest = (a.ctb.get c).fields.ulDest) = true ↔
      ¬∀ d, d ≠ c → (a.ctb.get d).state = .active → (a.ctb.get c).fields.ulDest.isSome →
        (a.ctb.get d).fields.ulDest ≠ (a.ctb.get c).fields.ulDest := by
    simp only [Bool.and_eq_true, List.any_eq_true, List.mem_finRange, bne_iff_ne, decide_eq_true_eq, true_and, not_forall,
      ne_eq, not_not, exists_prop]
    constructor
    · rintro ⟨present, d, ⟨ne, active⟩, same⟩; exact ⟨d, ne, active, present, same⟩
    · rintro ⟨d, ne, active, present, same⟩; exact ⟨present, d, ⟨ne, active⟩, same⟩
  unfold activationRefusal
  simp only [empty, unserved, taken]

/-- A carrier that passes the checks of R12 is DEFINED, and its destination is no ACTIVE carrier's. -/
theorem defined_of_pass {a : Alloc} {c : CarrierId} (pass : a.activationRefusal c = none) :
    (a.ctb.get c).state = .defined ∧ ∀ d, d ≠ c → (a.ctb.get d).state = .active → (a.ctb.get c).fields.ulDest.isSome →
      (a.ctb.get d).fields.ulDest ≠ (a.ctb.get c).fields.ulDest := by
  rw [activationRefusal_eq] at pass
  split_ifs at pass with undefined _ _ own
  exact ⟨not_not.1 undefined, own⟩

end Alloc

/-! ### Distinct destinations (R12) -/

theorem Alloc.places_ctb (a : Alloc) : a.places.ctb = a.ctb := rfl

/-- `State.destinationsOk`, of the carrier table. -/
def DestinationsDistinct (ctb : Table Carrier 64) : Prop :=
  ∀ c d : CarrierId, c ≠ d → (ctb.get c).state = .active → (ctb.get d).state = .active →
    (ctb.get c).fields.ulDest.isSome → (ctb.get c).fields.ulDest ≠ (ctb.get d).fields.ulDest

/-- Nothing is to be checked where every ACTIVE carrier was ACTIVE before with the same destination. -/
theorem DestinationsDistinct.of_active {ctb ctb' : Table Carrier 64} (h : DestinationsDistinct ctb)
    (old : ∀ c, (ctb'.get c).state = .active →
      (ctb.get c).state = .active ∧ (ctb'.get c).fields.ulDest = (ctb.get c).fields.ulDest) : DestinationsDistinct ctb' := by
  intro c d ne hc hd
  obtain ⟨hc, ec⟩ := old c hc
  obtain ⟨hd, ed⟩ := old d hd
  rw [ec, ed]
  exact h c d ne hc hd

theorem DestinationsDistinct.put {ctb : Table Carrier 64} (h : DestinationsDistinct ctb) (c : CarrierId) {r : Carrier}
    (old : r.state = .active → (ctb.get c).state = .active ∧ r.fields.ulDest = (ctb.get c).fields.ulDest) :
    DestinationsDistinct (ctb.put c r) := by
  refine h.of_active fun e he => ?_
  obtain rfl | ne := eq_or_ne c e
  · rw [Table.get_put_self] at he ⊢; exact old he
  · rw [Table.get_put_ne _ _ ne] at he ⊢; exact ⟨he, rfl⟩

theorem DestinationsDistinct.activate {a : Alloc} {c : CarrierId} (h : DestinationsDistinct a.ctb)
    (pass : a.activationRefusal c = none) (row : ProfileRow) : DestinationsDistinct (a.activate row c).ctb := by
  obtain ⟨-, own⟩ := Alloc.defined_of_pass pass
  intro e d ne he hd
  rw [Alloc.state_activate] at he hd
  rw [Alloc.fields_activate, Alloc.fields_activate]
  intro present same
  split at he
  · next ec =>
    subst ec
    rw [if_neg ne.symm] at hd
    exact own d ne.symm hd present same.symm
  · next ec =>
    split at hd
    · next dc => subst dc; exact own e ec he (same ▸ present) same
    · exact h e d ne he hd present same

theorem CarrierMove.destinations {p q : Places} (m : CarrierMove p q) (h : DestinationsDistinct p.ctb) :
    DestinationsDistinct q.ctb := by
  cases m with
  | defined c f groups idle => exact h.put c CarrierState.noConfusion
  | tuned c f dest => exact h.put c fun active => ⟨active, dest⟩
  | cleared c idle => exact h.put c CarrierState.noConfusion
  | trimmed c g x v record => exact h.put c fun active => ⟨active, rfl⟩
  | activated a row c pass => exact DestinationsDistinct.activate h pass row
  | deactivated a row c =>
    refine h.of_active fun e he => ?_
    have state := a.state_deactivate row c e
    obtain rfl | ne := eq_or_ne e c
    · rw [if_pos rfl] at state; cases he.symm.trans state
    · rw [if_neg ne] at state
      exact ⟨state.symm.trans he, congrArg CarrierFields.ulDest (a.fields_deactivate row c e)⟩
  | incident a row =>
    obtain ⟨records, -⟩ := Alloc.incident_keeps row a
    rw [Alloc.places_ctb]
    refine h.of_active fun e he => ?_
    rw [(records e).1] at he
    rw [(records e).2]
    exact ⟨he, rfl⟩
  | configured g cfg => exact h
  | expired g l due => exact h
  | slotBegun b => exact h
  | reset p ctb config unplaced => exact fun c _ _ hc => absurd hc (unplaced c).1

/-! ### Placements, lanes and lists (R17) -/

namespace Alloc

/-- What the law says depends on the two tables alone. -/
theorem Ok.of_places {a b : Alloc} (ok : a.Ok) (same : b.places = a.places) : b.Ok := by
  obtain ⟨ctb, lal, gates, out⟩ := a
  obtain ⟨ctb', lal', gates', out'⟩ := b
  cases same
  exact ⟨ok.agrees, ok.stated⟩

/-- One carrier's record replaced by one with the same placement states, in the same state of activation. -/
theorem Ok.put {a b : Alloc} (ok : a.Ok) (c : CarrierId) (r : Carrier) (places : b.places = ⟨a.ctb.put c r, a.lal⟩)
    (states : ∀ g, (r.placements.get g).bind (·.state) = a.placementState c g)
    (active : r.state = .active ↔ (a.ctb.get c).state = .active)
    (records : r.state = .active → ∀ g, (r.placements.get g).isSome = ((a.ctb.get c).placements.get g).isSome) : b.Ok := by
  refine Ok.of_places (a := { a with ctb := a.ctb.put c r }) ?_ places
  have same : ∀ e g, ({ a with ctb := a.ctb.put c r } : Alloc).placementState e g = a.placementState e g := by
    intro e g
    obtain rfl | ne := eq_or_ne c e
    · simpa [placementState] using states g
    · simp [placementState, ne]
  refine ⟨fun g => ?_, fun e g => ?_⟩
  · rw [AgreesIn, funext fun e => same e g]
    exact ok.agrees g
  · rw [same, ok.stated]
    obtain rfl | ne := eq_or_ne c e
    · rw [Table.get_put_self, active]
      exact and_congr_right fun h => by rw [records (active.2 h)]
    · rw [Table.get_put_ne _ _ ne]

/-- The groups replaced by others of the same owners, the same FREE lanes and the same lists. -/
theorem Ok.of_groups {a b : Alloc} (ok : a.Ok) (ctb : b.ctb = a.ctb) (waiting : ∀ g, b.waiting g = a.waiting g)
    (owner : ∀ g l, (b.lane g l).owner = (a.lane g l).owner)
    (free : ∀ g l, (b.lane g l).state = .free ↔ (a.lane g l).state = .free) : b.Ok := by
  have same : ∀ c g, b.placementState c g = a.placementState c g := fun c g => by rw [placementState, ctb]; rfl
  refine ⟨fun g => ?_, fun c g => ?_⟩
  · rw [AgreesIn, funext fun c => same c g, waiting]
    exact (ok.agrees g).of_lanes (owner g) (free g)
  · rw [same, ctb]; exact ok.stated c g

end Alloc

/-- The two tables with closed gates and no notice. -/
def Places.alloc (p : Places) : Alloc := ⟨p.ctb, p.lal, .fill (.fill closedGates), []⟩

theorem Alloc.ok_iff_places {a : Alloc} : a.places.alloc.Ok ↔ a.Ok := ⟨fun h => h.of_places rfl, fun h => h.of_places rfl⟩

theorem unplaced_ok (ctb : Table Carrier 64) (config : GroupId → GroupConfig) (unplaced : ∀ c, (ctb.get c).Unplaced) :
    (Places.alloc ⟨ctb, .make fun g => .empty (config g)⟩).Ok where
  agrees g :=
    { held := fun c => by simp [Alloc.placementState, Places.alloc, (unplaced c).2, Alloc.lane, Group.empty, Lane.default]
      waiting := fun c => by simp [Alloc.placementState, Places.alloc, (unplaced c).2, Alloc.waiting, Group.empty]
      single := fun l m => by simp [Alloc.lane, Places.alloc, Group.empty, Lane.default]
      free := fun l => by simp [Alloc.lane, Places.alloc, Group.empty, Lane.default]
      nodup := by simp [Alloc.waiting, Places.alloc, Group.empty] }
  stated c g := by simp [Alloc.placementState, Places.alloc, (unplaced c).1, (unplaced c).2]

/-- The guard step changes no owner and frees no lane (R31). -/
theorem Lane.guardStep_owner_free (x : Lane) : x.guardStep.owner = x.owner ∧ (x.guardStep.state = .free ↔ x.state = .free) := by
  unfold Lane.guardStep
  split
  · next h => split <;> simp [Lane.expire, h]
  · simp

theorem CarrierMove.placements {p q : Places} (m : CarrierMove p q) (ok : p.alloc.Ok) : q.alloc.Ok := by
  have bare : ∀ {c : CarrierId}, (p.ctb.get c).state ≠ .active → ∀ g, p.alloc.placementState c g = none := by
    intro c idle g
    rw [← Option.not_isSome_iff_eq_none, ok.stated]
    exact fun h => idle h.1
  cases m with
  | @defined ctb lal c f groups idle =>
    refine ok.put c _ rfl (fun g => ?_) (iff_of_false CarrierState.noConfusion idle) CarrierState.noConfusion
    rw [bare idle]
    have stateless := bare idle g
    cases e : (ctb.get c).placements.get g <;> simp_all [placementsFor, Alloc.placementState, Places.alloc]
  | tuned c f dest => exact ok.put c _ rfl (fun _ => rfl) Iff.rfl fun _ _ => rfl
  | cleared c idle =>
    refine ok.put c _ rfl (fun g => ?_) (iff_of_false CarrierState.noConfusion idle) CarrierState.noConfusion
    rw [bare idle, Carrier.default, Table.get_fill]; rfl
  | @trimmed ctb lal c g x v record =>
    refine ok.put c _ rfl (fun h => ?_) Iff.rfl fun _ h => ?_
    · obtain rfl | ne := eq_or_ne g h
      · simp [Alloc.placementState, Places.alloc, record]
      · simp [Alloc.placementState, Places.alloc, ne]
    · obtain rfl | ne := eq_or_ne g h
      · simp [Places.alloc, record]
      · simp [Places.alloc, ne]
  | activated a row c pass =>
    obtain ⟨defined, -⟩ := Alloc.defined_of_pass pass
    exact Alloc.ok_iff_places.2 ((Alloc.ok_iff_places.1 ok).activate row (by rw [defined]; decide))
  | deactivated a row c => exact Alloc.ok_iff_places.2 ((Alloc.ok_iff_places.1 ok).deactivate row c)
  | incident a row => exact Alloc.ok_iff_places.2 ((Alloc.ok_iff_places.1 ok).incident row)
  | @configured ctb lal g cfg =>
    have group : ∀ h, ((lal.edit g fun x => { x with config := cfg }).get h).lanes = (lal.get h).lanes ∧
        ((lal.edit g fun x => { x with config := cfg }).get h).waiting = (lal.get h).waiting := by
      intro h
      obtain rfl | ne := eq_or_ne g h
      · simp
      · simp [ne]
    have lane : ∀ h l, (Places.alloc ⟨ctb, lal.edit g fun x => { x with config := cfg }⟩).lane h l =
        (Places.alloc ⟨ctb, lal⟩).lane h l := fun h l => congrArg (·.get l) (group h).1
    exact ok.of_groups rfl (fun h => (group h).2) (fun h l => by rw [lane]) fun h l => by rw [lane]
  | @expired ctb lal g l due =>
    have guarded : ((lal.get g).lanes.get l).state = .guard := by
      simp only [Lane.expiring, Bool.and_eq_true, decide_eq_true_eq] at due
      exact due.1
    have list : ∀ h, ((lal.edit g fun x => { x with lanes := x.lanes.edit l Lane.expire }).get h).waiting = (lal.get h).waiting := by
      intro h
      obtain rfl | gh := eq_or_ne g h
      · simp
      · simp [gh]
    have lane : ∀ h m, ((lal.edit g fun x => { x with lanes := x.lanes.edit l Lane.expire }).get h).lanes.get m =
        if g = h ∧ l = m then ((lal.get h).lanes.get m).expire else (lal.get h).lanes.get m := by
      intro h m
      obtain rfl | gh := eq_or_ne g h
      · obtain rfl | lm := eq_or_ne l m
        · simp
        · simp [lm]
      · simp [gh]
    refine ok.of_groups rfl list (fun h m => ?_) fun h m => ?_
    · rw [Alloc.lane, Places.alloc, lane]
      split <;> rfl
    · rw [Alloc.lane, Places.alloc, lane]
      split
      · next here =>
        obtain ⟨rfl, rfl⟩ := here
        exact iff_of_false LaneState.noConfusion (by simp [Alloc.lane, Places.alloc, guarded])
      · rfl
  | @slotBegun ctb lal b =>
    refine ok.of_groups rfl (fun g => ?_) (fun g l => ?_) fun g l => ?_
    · simp [Places.alloc, Alloc.waiting, markLanes, guardStep]
    · simp [Places.alloc, Alloc.lane, markLanes, guardStep, (Lane.guardStep_owner_free _).1]
    · simp [Places.alloc, Alloc.lane, markLanes, guardStep, (Lane.guardStep_owner_free _).2]
  | reset p ctb config unplaced => exact unplaced_ok ctb config unplaced

/-- `State.placementsOk` is the law of the lane allocator, part by part. -/
theorem placementsOk_iff (s : State) : s.placementsOk ↔ s.alloc.Ok := by
  constructor
  · rintro ⟨held, waiting, idle, placed, single, free, nodup⟩
    refine ⟨fun g => ⟨fun c => held c g, fun c => waiting c g, single g, free g, nodup g⟩, fun c g => ⟨fun present => ?_, fun h => ?_⟩⟩
    · have stated := Option.isSome_iff_ne_none.1 present
      exact ⟨by_contra fun inactive => stated (idle c g inactive), Alloc.has_record_of_state stated⟩
    · exact Option.isSome_iff_ne_none.2 (placed c g h.1 h.2)
  · intro ok
    refine ⟨fun c g => (ok.agrees g).held c, fun c g => (ok.agrees g).waiting c, fun c g inactive => ?_, fun c g active record => ?_,
      fun g => (ok.agrees g).single, fun g => (ok.agrees g).free, fun g => (ok.agrees g).nodup⟩
    · rw [← Option.not_isSome_iff_eq_none, ok.stated]
      exact fun h => inactive h.1
    · exact Option.isSome_iff_ne_none.1 ((ok.stated c g).2 ⟨active, record⟩)

end Sys2Proof.Machine

namespace Sys2Proof.Proofs
open Sys2Proof Sys2Proof.Machine

/-- Settles O52: destinations are a law of the carrier table, and every move of it keeps it; only an activation adds an ACTIVE carrier, past the
check of R12. -/
theorem stepKeepsDestinationsDistinct : Obligations.StepKeepsDestinationsDistinct :=
  keptByStep_of_moves (law := fun p => DestinationsDistinct p.ctb) CarrierMove.destinations

/-- Settles O55: the agreement is a law of the two tables, and every move of them keeps it. -/
theorem stepKeepsPlacementsAgreeing : Obligations.StepKeepsPlacementsAgreeing := by
  have kept := keptByStep_of_moves (law := fun p => p.alloc.Ok) CarrierMove.placements
  intro s t hs h
  exact (placementsOk_iff t).2 (Alloc.ok_iff_places.1 (kept s t (Alloc.ok_iff_places.2 ((placementsOk_iff s).1 hs)) h))

end Sys2Proof.Proofs
end

section
/-! CARSET, CARCLR and TRIM: what each answers, case by case (R7 to R10, R15, R18). -/
namespace Sys2Proof.Machine

theorem index_val {k : Nat} (i : Fin k) : index k i.val = some i := by simp [index]

theorem index_eq_none {k n : Nat} (h : k ≤ n) : index k n = none := by simp [index, h]

/-- A request that the hub hears is answered as its kind carries it out, whatever the kind. -/
theorem exec_heard {s t : State} {p : TrunkId} {tag : Nat} {st : Status} {body : List Byte} (h : s.hears p tag) (r : Request)
    (act : requestAct id r s = ⟨t, st, body⟩) : exec (commandOf p tag r) s = .next (t.answered p tag (requestCode r) st body) := by
  have heard := requestCommand_heard h (requestCode r) (requestAct id r)
  rw [act] at heard
  cases r <;> exact heard

/-! ### CARSET -/

section Carset
variable {s : State} {a : CarsetArgs} {c : CarrierId} {v : CarsetNamed}

theorem carset_of_idle (carrier : a.carrier = c.val) (named : carsetNamed a = some v) (idle : (s.ctb.get c).state ≠ .active) :
    carset a s = okWith
      { s with ctb := s.ctb.put c ⟨.defined, carsetFields a v, placementsFor (s.ctb.get c).placements a.groups⟩ }
      (carsetChanged a (carsetFields a v)) := by
  simp only [carset, carrier, index_val, named, idle, if_false]

theorem carset_of_active (carrier : a.carrier = c.val) (named : carsetNamed a = some v) (active : (s.ctb.get c).state = .active) :
    carset a s = if sameStructure (s.ctb.get c) (carsetFields a v) a.groups then
        okWith { s with ctb := s.ctb.put c { s.ctb.get c with fields := carsetFields a v } } (carsetChanged a (carsetFields a v))
      else refuse .state s := by
  simp only [carset, carrier, index_val, named, active, if_true]

theorem carset_of_unnamed (h : 64 ≤ a.carrier ∨ carsetNamed a = none) : carset a s = refuse .range s := by
  obtain far | unnamed := h
  · simp only [carset, index_eq_none far]
  · unfold carset
    split
    · next named => rw [unnamed] at named; cases named
    · rfl

/-- R10: a structural field differs, or the set does. -/
theorem sameStructure_iff {r : Carrier} {f : CarrierFields} {groups : Nat} :
    sameStructure r f groups = true ↔ f.kind = r.fields.kind ∧ f.rfCode = r.fields.rfCode ∧ f.dlSource = r.fields.dlSource ∧
      f.ulDest = r.fields.ulDest ∧ ∀ g : GroupId, groups.testBit g.val = (r.placements.get g).isSome := by
  simp only [sameStructure, inSet, Bool.and_eq_true, decide_eq_true_eq, List.all_eq_true, List.mem_finRange, forall_const,
    beq_iff_eq, and_assoc]
  constructor
  · rintro ⟨kind, rf, source, dest, groups⟩
    exact ⟨kind.symm, rf.symm, source.symm, dest.symm, fun g => (groups g).symm⟩
  · rintro ⟨kind, rf, source, dest, groups⟩
    exact ⟨kind.symm, rf.symm, source.symm, dest.symm, fun g => (groups g).symm⟩

end Carset

theorem carsetNamed_of_codes {a : CarsetArgs} {k : CarrierKind} {m : TalkMode} {el st : Bool} {src dst : Option TrunkLane}
    (kind : codeKind a.kind = some k) (talk : codeTalk a.talkMode = some m) (eligible : codeBool a.eligible = some el)
    (start : codeBool a.startActive = some st) (source : codeTrunkLane a.dlSource = some src)
    (dest : codeTrunkLane a.ulDest = some dst) (rf : a.rfCode ≤ 4095) (broadcast : k = .broadcast → dst = none) :
    carsetNamed a = some ⟨k, src, dst, m, el, st⟩ := by
  have noDest : ¬(k = .broadcast ∧ dst.isSome) := fun ⟨b, named⟩ => by simp [broadcast b] at named
  simp only [carsetNamed, kind, talk, eligible, start, source, dest, if_neg (Nat.not_lt.2 rf), if_neg noDest]

theorem carsetNamed_eq_none {a : CarsetArgs} (h : codeKind a.kind = none ∨ codeTalk a.talkMode = none ∨
    codeBool a.eligible = none ∨ codeBool a.startActive = none ∨ codeTrunkLane a.dlSource = none ∨ codeTrunkLane a.ulDest = none ∨
    4095 < a.rfCode ∨ (codeKind a.kind = some .broadcast ∧ codeTrunkLane a.ulDest ≠ some none)) : carsetNamed a = none := by
  unfold carsetNamed
  split
  · next k m el st src dst kind talk eligible start source dest =>
    simp only [kind, talk, eligible, start, source, dest, reduceCtorEq, false_or, Option.some.injEq] at h
    obtain rf | ⟨broadcast, named⟩ := h
    · rw [if_pos rf]
    · have noDest : k = .broadcast ∧ dst.isSome := ⟨broadcast, Option.isSome_iff_ne_none.2 fun e => named (congrArg some e)⟩
      rw [if_pos noDest, ite_self]
  · rfl

/-! ### CARCLR and TRIM -/

theorem trim_of_outside {s : State} {c : CarrierId} {g : GroupId} (record : (s.ctb.get c).placements.get g = none) (v : Nat) :
    trim c.val g.val v s = refuse .state s := by
  simp only [trim, index_val, record]

theorem trim_of_record {s : State} {c : CarrierId} {g : GroupId} {q : Placement}
    (record : (s.ctb.get c).placements.get g = some q) (v : Nat) :
    trim c.val g.val v s =
      if (s.ctb.get c).state = .free then refuse .state s
      else okWith
        { s with ctb := s.ctb.edit c fun r => { r with placements := r.placements.put g (some { q with trim := min v 8192 }) } }
        (changedFields [(2, decide (8192 < v))]) := by
  simp only [trim, index_val, record, Table.edit]

theorem trim_of_range {n m : Nat} (h : 64 ≤ n ∨ 8 ≤ m) (v : Nat) (s : State) : trim n m v s = refuse .range s := by
  obtain far | far := h
  · simp only [trim, index_eq_none far]
  · unfold trim
    split
    · next named => rw [index_eq_none far] at named; cases named
    · rfl

/-- The list of one field: a count, and its place where it was stored otherwise (R210). -/
theorem changedFields_one (n : Nat) (changed : Bool) :
    changedFields [(n, changed)] = if changed then [1, BitVec.ofNat 8 n] else [0] := by
  cases changed <;> simp [changedFields, be]

end Sys2Proof.Machine

namespace Sys2Proof.Proofs
open Sys2Proof Sys2Proof.Machine

/-- Settles O5: codes that all name something name the values of R7, and any other code leaves no values. -/
theorem carsetWritesTheRecord : Obligations.CarsetWritesTheRecord := by
  intro s p tag a h
  refine ⟨fun c k m el st src dst carrier kind talk eligible start source dest rf broadcast idle => ?_, fun bad => ?_⟩
  · exact exec_heard h (.carset a)
      (carset_of_idle carrier (carsetNamed_of_codes kind talk eligible start source dest rf broadcast) idle)
  · exact exec_heard h (.carset a) (carset_of_unnamed (bad.imp_right carsetNamed_eq_none))

/-- Settles O6: the structural fields agree exactly where `sameStructure` says so, and then writing the new ones writes the old. -/
theorem carsetOnActiveCarrierKeepsStructure : Obligations.CarsetOnActiveCarrierKeepsStructure := by
  intro s p tag a c v h carrier named active
  have answer := carset_of_active carrier named active
  refine ⟨fun differs => ?_, fun same => ?_⟩
  · refine exec_heard h (.carset a) (answer.trans (if_neg fun same => ?_))
    obtain ⟨kind, rf, source, dest, groups⟩ := sameStructure_iff.1 same
    obtain d | d | d | d | ⟨g, d⟩ := differs
    · exact d kind
    · exact d rf
    · exact d source
    · exact d dest
    · exact d (groups g)
  · have fields := answer.trans (if_pos (sameStructure_iff.2 same))
    obtain ⟨kind, rf, source, dest, -⟩ := same
    simp only [carsetFields, kind, rf, source, dest, active] at fields
    exact exec_heard h (.carset a) fields

/-- Settles O9: each answer is one branch of the request's meaning. -/
theorem carclrAndTrimActOnOneRecord : Obligations.CarclrAndTrimActOnOneRecord := by
  intro s p tag c h
  refine ⟨fun n far => ?_, fun n m v far => ?_, ?_, fun g v => ?_⟩
  · exact exec_heard h (.carclr n) (by simp only [requestAct, carclr, index_eq_none far]; rfl)
  · exact exec_heard h (.trim n m v) (trim_of_range far v s)
  · cases state : (s.ctb.get c).state <;>
      exact exec_heard h (.carclr c.val) (by simp only [requestAct, carclr, index_val, state]; rfl)
  · cases record : (s.ctb.get c).placements.get g with
    | none => exact exec_heard h (.trim c.val g.val v) (trim_of_outside record v)
    | some q =>
      have answer := trim_of_record record v
      rw [changedFields_one] at answer
      by_cases free : (s.ctb.get c).state = .free
      · simp only [if_pos free] at answer ⊢
        exact exec_heard h (.trim c.val g.val v) answer
      · simp only [if_neg free, decide_eq_true_eq] at answer ⊢
        exact exec_heard h (.trim c.val g.val v) answer

end Sys2Proof.Proofs
end

section
/-! The rules of the group's arbiter (R35 to R38), one equation per case, and which placements stay in play in its run. -/
namespace Sys2Proof.Machine

theorem Table.edit_edit {α : Type} {n : Nat} (t : Table α n) (i : Fin n) (f h : α → α) :
    (t.edit i f).edit i h = t.edit i fun x => h (f x) := by
  ext j
  obtain rfl | ne := eq_or_ne i j
  · simp
  · simp [ne]

namespace Alloc

variable {a : Alloc} {g : GroupId} {l : LaneId} {c v : CarrierId} {row : ProfileRow}

/-! ### The grant step (R36) -/

theorem freeLane_eq_none (busy : ∀ l, (a.lane g l).state ≠ .free) : a.freeLane g = none := by
  simpa [freeLane] using busy

theorem freeLane_eq_some (free : (a.lane g l).state = .free) (lowest : ∀ m, m < l → (a.lane g m).state ≠ .free) :
    a.freeLane g = some l := by
  unfold freeLane
  refine List.find?_eq_some_iff_getElem.2 ⟨by simpa using free, l.val, by simp, by simp, fun j hj => ?_⟩
  simpa using lowest ⟨j, hj.trans l.isLt⟩ hj

theorem grantStep_of_busy (c : CarrierId) (rest : List CarrierId) (busy : ∀ l, (a.lane g l).state ≠ .free) :
    grantStep g (c :: rest) a = a := by
  simp only [grantStep, freeLane_eq_none busy]

theorem grantStep_of_free (c : CarrierId) (rest : List CarrierId) (free : (a.lane g l).state = .free)
    (lowest : ∀ m, m < l → (a.lane g m).state ≠ .free) : grantStep g (c :: rest) a = grantStep g rest (a.give g l c) := by
  simp only [grantStep, freeLane_eq_some free lowest]

/-! ### Victims and the preempt step (R37, R38) -/

theorem mayPreempt_iff : a.mayPreempt row c = true ↔
    (a.ctb.get c).fields.kind = .rescue ∨ ((a.ctb.get c).fields.kind = .broadcast ∧ row.broadcastPreempt = true) := by
  unfold mayPreempt
  split <;> simp [*]

theorem betterVictim_of_none {best : Option (LaneId × CarrierId × Nat)} (h : a.victimAt g l = none) :
    a.betterVictim g best l = best := by
  simp only [betterVictim, h]

theorem betterVictim_of_some {best : Option (LaneId × CarrierId × Nat)} {u : CarrierId × Nat} (h : a.victimAt g l = some u) :
    a.betterVictim g best l = if best.all fun b => b.2.2 ≤ u.2 then some (l, u) else best := by
  simp only [betterVictim, h]

theorem victim_eq_none (noMobile : ∀ l, a.victimAt g l = none) : a.victim g = none := by
  have stays : ∀ ls : List LaneId, ls.foldl (a.betterVictim g) none = none := by
    intro ls
    induction ls with
    | nil => rfl
    | cons l ls ih => rw [List.foldl_cons, betterVictim_of_none (noMobile l), ih]
  rw [victim_eq, stays]; rfl

/-- A victim found stays while the lanes that follow have only owners of smaller rank. -/
theorem foldl_betterVictim_of_less {best : LaneId × CarrierId × Nat} (ls : List LaneId)
    (less : ∀ m ∈ ls, ∀ w k, a.victimAt g m = some (w, k) → k < best.2.2) :
    ls.foldl (a.betterVictim g) (some best) = some best := by
  induction ls with
  | nil => rfl
  | cons m ls ih =>
    have step : a.betterVictim g (some best) m = some best := by
      cases found : a.victimAt g m with
      | none => exact betterVictim_of_none found
      | some u =>
        have smaller := less m List.mem_cons_self u.1 u.2 found
        rw [betterVictim_of_some found, if_neg (by simpa using smaller)]
    rw [List.foldl_cons, step]
    exact ih fun m' hm => less m' (List.mem_cons_of_mem m hm)

/-- Of the greatest rank the last lane is found, whatever smaller or equal one was found before. -/
theorem foldl_betterVictim_of_greatest {r : Nat} (victim : a.victimAt g l = some (v, r))
    (greatest : ∀ m w k, a.victimAt g m = some (w, k) → k < r ∨ (k = r ∧ m ≤ l)) (ls : List LaneId) :
    ∀ best, ls.Pairwise (· < ·) → l ∈ ls → best.all (fun b => b.2.2 ≤ r) → ls.foldl (a.betterVictim g) best = some (l, v, r) := by
  induction ls with
  | nil => exact fun _ _ hl => nomatch hl
  | cons m ls ih =>
    intro best sorted hl bound
    obtain ⟨first, sorted⟩ := List.pairwise_cons.1 sorted
    rw [List.foldl_cons]
    obtain rfl | ne := eq_or_ne l m
    · rw [betterVictim_of_some victim, if_pos bound]
      refine foldl_betterVictim_of_less ls fun m hm w k found => (greatest m w k found).resolve_right fun tie => ?_
      exact absurd tie.2 (not_le.2 (first m hm))
    · refine ih _ sorted ((List.mem_cons.1 hl).resolve_left ne) ?_
      cases found : a.victimAt g m with
      | none => rw [betterVictim_of_none found]; exact bound
      | some u =>
        have rank : u.2 ≤ r := (greatest m u.1 u.2 found).elim le_of_lt fun tie => tie.1.le
        rw [betterVictim_of_some found]
        split
        · simpa using rank
        · exact bound

theorem victim_eq_some {r : Nat} (victim : a.victimAt g l = some (v, r))
    (greatest : ∀ m w k, a.victimAt g m = some (w, k) → k < r ∨ (k = r ∧ m ≤ l)) : a.victim g = some (l, v) := by
  rw [victim_eq, foldl_betterVictim_of_greatest victim greatest _ none (List.pairwise_lt_finRange 32) (List.mem_finRange l) rfl]
  rfl

theorem preemptStep_of_not (rest : List CarrierId) (h : ¬a.mayPreempt row c = true) :
    preemptStep g row (c :: rest) a = preemptStep g row rest a := by
  simp only [preemptStep, if_neg h]

theorem preemptStep_of_none (rest : List CarrierId) (h : a.mayPreempt row c = true) (noVictim : a.victim g = none) :
    preemptStep g row (c :: rest) a = a := by
  simp only [preemptStep, if_pos h, noVictim]

theorem preemptStep_of_victim (rest : List CarrierId) (h : a.mayPreempt row c = true) (victim : a.victim g = some (l, v)) :
    preemptStep g row (c :: rest) a = preemptStep g row rest (a.handOver g l v c) := by
  simp only [preemptStep, if_pos h, victim]

/-! ### A lane given and a lane handed over, written out (R36, R38) -/

theorem give_eq (a : Alloc) (g : GroupId) (l : LaneId) (c : CarrierId) : a.give g l c =
    { ctb := a.ctb.edit c fun x => { x with placements := x.placements.edit g fun q => q.map fun y => { y with state := some .held } }
      lal := a.lal.edit g fun x => { x with
        lanes := x.lanes.put l ⟨.guard, some c, x.config.guard, none⟩
        waiting := x.waiting.filter fun d => d != c }
      gates := a.gates.edit g fun x => x.put l closedGates
      out := a.out ++ [.placement c g .granted (some l)] } := by
  unfold give leave
  rw [waiting_putLane]
  simp only [say, setPlacement, setWaiting, putLane, Table.edit_edit]
  rfl

theorem joinHeadMobile_eq (a : Alloc) (g : GroupId) (v : CarrierId) : a.joinHeadMobile g v =
    { a with lal := a.lal.edit g fun x => { x with
        waiting := x.waiting.takeWhile (fun d => (a.ctb.get d).fields.kind != .mobile) ++
          v :: x.waiting.dropWhile fun d => (a.ctb.get d).fields.kind != .mobile } } := by
  have ahead : (fun d => decide (a.classOf d < 2)) = fun d => (a.ctb.get d).fields.kind != .mobile := by
    funext d
    unfold classOf
    split <;> simp [*]
  simp only [joinHeadMobile, ahead]
  rfl

theorem handOver_eq (a : Alloc) (g : GroupId) (l : LaneId) (v c : CarrierId) :
    let waits : Alloc := { a with
      ctb := a.ctb.edit v fun x => { x with placements := x.placements.edit g fun q => q.map fun y => { y with state := some .waiting } }
      lal := a.lal.edit g fun x => { x with
        waiting := x.waiting.takeWhile (fun d => (a.ctb.get d).fields.kind != .mobile) ++
          v :: x.waiting.dropWhile fun d => (a.ctb.get d).fields.kind != .mobile } }
    a.handOver g l v c = { waits.give g l c with out := (waits.give g l c).out ++ [.placement v g .preempted (some l)] } := by
  have kinds : ∀ d, ((a.setPlacement v g (some .waiting)).ctb.get d).fields = (a.ctb.get d).fields :=
    fun d => ((keeps_setPlacement a v g _).record d).2
  simp only [handOver, joinHeadMobile_eq, kinds]
  rfl

/-! ### Placements in play -/

/-- A placement that waits for a lane or holds one. -/
def InPlay (a : Alloc) (c : CarrierId) (g : GroupId) : Prop :=
  a.placementState c g = some .waiting ∨ a.placementState c g = some .held

theorem inPlay_give (h : a.InPlay c g) (l : LaneId) (d : CarrierId) : (a.give g l d).InPlay c g := by
  rw [InPlay, placementState_give]
  split
  · exact .inr rfl
  · exact h

theorem inPlay_handOver (h : a.InPlay c g) (l : LaneId) (v d : CarrierId) : (a.handOver g l v d).InPlay c g := by
  refine inPlay_give (a := (a.setPlacement v g (some .waiting)).joinHeadMobile g v) ?_ l d
  rw [InPlay, joinHeadMobile, placementState_setWaiting, placementState_setPlacement]
  split
  · exact .inl rfl
  · exact h

theorem inPlay_grantStep (w : List CarrierId) : ∀ a : Alloc, a.InPlay c g → (grantStep g w a).InPlay c g := by
  induction w with
  | nil => exact fun _ h => h
  | cons d w ih =>
    intro a h
    unfold grantStep
    split
    · exact h
    · exact ih _ (inPlay_give h _ d)

theorem inPlay_preemptStep (w : List CarrierId) : ∀ a : Alloc, a.InPlay c g → (preemptStep g row w a).InPlay c g := by
  induction w with
  | nil => exact fun _ h => h
  | cons d w ih =>
    intro a h
    unfold preemptStep
    split
    · split
      · exact h
      · exact ih _ (inPlay_handOver h _ _ d)
    · exact ih a h

/-- The arbiter takes no placement out of play (R35). -/
theorem inPlay_arbiter (h : a.InPlay c g) : (arbiter g row a).InPlay c g :=
  inPlay_preemptStep _ _ (inPlay_grantStep _ a h)

theorem shedable_iff : a.shedable row c = true ↔
    (a.ctb.get c).fields.kind = .mobile ∧ row.shedRank ≤ (a.ctb.get c).fields.rank := by
  simp only [shedable, Bool.and_eq_true, decide_eq_true_eq]

/-- A placement entered is SHED, with lanes and list as they were, or in play (R13). -/
theorem enter_state (record : ((a.ctb.get c).placements.get g).isSome) :
    if (a.ctb.get c).fields.kind = .mobile ∧ row.shedRank ≤ (a.ctb.get c).fields.rank then
      (enter row c a g).placementState c g = some .shed ∧ (enter row c a g).lal.get g = a.lal.get g
    else (enter row c a g).InPlay c g := by
  unfold enter
  split
  · next shed =>
    rw [if_pos (shedable_iff.2 shed), placementState_setPlacement, if_pos ⟨rfl, record⟩]
    exact ⟨rfl, rfl⟩
  · next stays =>
    rw [if_neg (mt shedable_iff.1 stays)]
    refine inPlay_arbiter (.inl ?_)
    rw [joinTail, placementState_setWaiting, placementState_setPlacement, if_pos ⟨rfl, record⟩]

end Alloc
end Sys2Proof.Machine
end

section
/-! CARON and CAROFF: their answers, and what the walks over the carrier's groups leave (R12 to R14). -/
namespace Sys2Proof.Machine

namespace Alloc

theorem KeepsRecords.groups {a b : Alloc} (k : KeepsRecords a b) (c : CarrierId) : b.groups c = a.groups c := by
  simp only [Alloc.groups, k.isSome]

theorem withState_records (a : Alloc) (c : CarrierId) (st : CarrierState) :
    (∀ (e : CarrierId) (g : GroupId), ((a.withState c st).ctb.get e).placements.get g = (a.ctb.get e).placements.get g) ∧
    (a.withState c st).groups c = a.groups c := by
  have same : ∀ e g, ((a.withState c st).ctb.get e).placements.get g = (a.ctb.get e).placements.get g :=
    fun e g => (sameIn_withState a c st g).placement e
  exact ⟨same, by simp only [groups, same]⟩

theorem not_mem_groups {a : Alloc} {c : CarrierId} {g : GroupId} (outside : (a.ctb.get c).placements.get g = none) :
    g ∉ a.groups c := by
  rw [mem_groups, outside]; exact Bool.false_ne_true

variable (a : Alloc) (row : ProfileRow) (c : CarrierId)

theorem trim_activate (e : CarrierId) (g : GroupId) :
    (((a.activate row c).ctb.get e).placements.get g).map (·.trim) = ((a.ctb.get e).placements.get g).map (·.trim) := by
  rw [(activate_records a row c).trim, (withState_records a c .active).1]

theorem trim_deactivate (e : CarrierId) (g : GroupId) :
    (((a.deactivate row c).ctb.get e).placements.get g).map (·.trim) = ((a.ctb.get e).placements.get g).map (·.trim) := by
  rw [deactivate_eq, (withState_records _ c .defined).1, (exits_records a row c).trim]

theorem groups_activate : (a.activate row c).groups c = a.groups c := by
  rw [(activate_records a row c).groups, (withState_records a c .active).2]

/-- Groups outside the carrier's set. -/
theorem sameIn_activate {a : Alloc} {c : CarrierId} {g : GroupId} (outside : g ∉ a.groups c) : SameIn g a (a.activate row c) := by
  rw [activate_eq, (withState_records a c .active).2]
  exact (sameIn_withState a c .active g).trans (foldl_sameIn (keeps_enter row c) _ _ outside)

theorem sameIn_deactivate {a : Alloc} {c : CarrierId} {g : GroupId} (outside : g ∉ a.groups c) : SameIn g a (a.deactivate row c) := by
  rw [deactivate_eq]
  exact (foldl_sameIn (keeps_exitGroup row c) _ _ outside).trans (sameIn_withState _ c .defined g)

/-- A placement after the activation of its carrier is SHED, with lanes and list as they were, or in play (R13). -/
theorem activate_state {a : Alloc} {c : CarrierId} {g : GroupId} (record : ((a.ctb.get c).placements.get g).isSome) :
    if (a.ctb.get c).fields.kind = .mobile ∧ row.shedRank ≤ (a.ctb.get c).fields.rank then
      (a.activate row c).placementState c g = some .shed ∧ (a.activate row c).lal.get g = a.lal.get g
    else (a.activate row c).InPlay c g := by
  let b := a.withState c .active
  have sees : b.groups c = a.groups c := (withState_records a c .active).2
  obtain ⟨x, records, before, after⟩ :=
    foldl_visit (keeps_enter row c) _ b (b.groups_nodup c) (sees ▸ mem_groups.2 record)
  have fields : (x.ctb.get c).fields = (a.ctb.get c).fields := ((records.record c).2).trans (fields_withState a c c .active)
  have lanes : x.lal.get g = a.lal.get g := before.group
  have own := enter_state (a := x) (g := g) (c := c) (row := row)
    (by rw [records.isSome, (withState_records a c .active).1]; exact record)
  rw [fields, lanes] at own
  rw [activate_eq]
  unfold InPlay at own ⊢
  rw [after.placementState, after.group]
  exact own

/-- The walk of CARON may read kind and rank once, at its start. -/
theorem foldl_enter_of_fields {F : CarrierFields} {f : Alloc → GroupId → Alloc}
    (hf : ∀ b g, (b.ctb.get c).fields = F → f b g = enter row c b g) (gs : List GroupId) :
    ∀ b : Alloc, (b.ctb.get c).fields = F → gs.foldl f b = gs.foldl (enter row c) b := by
  induction gs with
  | nil => exact fun _ _ => rfl
  | cons g gs ih =>
    intro b hb
    rw [List.foldl_cons, List.foldl_cons, hf b g hb]
    exact ih _ ((((keeps_enter row c b g).record c).2).trans hb)

/-- The lane of a carrier in a group, and the release of it, written out (R32). -/
theorem releaseOf_eq (g : GroupId) : a.releaseOf g c = ((a.laneOf g c).map fun l => a.putLane g l .default).getD a := by
  unfold releaseOf
  cases a.laneOf g c <;> rfl

end Alloc

/-! ### CARON -/

section Caron
variable {s : State} {c : CarrierId}

theorem caron_of_refusal {st : Status} (refusal : s.alloc.activationRefusal c = some st) : caron c.val s = refuse st s := by
  simp only [caron, index_val, refusal]

/-- The hub after an accepted CARON. -/
def State.caronDone (s : State) (c : CarrierId) : State :=
  let a := s.alloc.activate s.ict.row c
  { s with
    ctb := a.ctb, lal := a.lal, mga := s.mga.raiseAll a.out
    ucb := { s.ucb with gates := a.gates, lastClose := s.ucb.lastClose.put c none } }

theorem caron_of_pass (pass : s.alloc.activationRefusal c = none) :
    caron c.val s = okWith (s.caronDone c) (be 1 (s.alloc.groups c).length ++
      (s.alloc.groups c).flatMap (placementReport (s.alloc.activate s.ict.row c) c)) := by
  simp only [caron, index_val, pass, Alloc.groups_activate]
  rfl

end Caron

/-- One entry of the answer of CARON, byte by byte (R13; entry 13). -/
theorem placementReport_eq (a : Alloc) (c : CarrierId) (g : GroupId) :
    placementReport a c g =
      match a.placementState c g, (List.finRange 32).find? fun l => (a.lane g l).owner == some c with
      | some .held, some l => [1, 1, BitVec.ofNat 8 l.val]
      | some .held, none => [1, 0, 0]
      | some .shed, _ => [2, 0, 0]
      | _, _ => [0, 0, 0] := by
  have found : a.laneOf g c = (List.finRange 32).find? fun l => (a.lane g l).owner == some c := by
    simp only [Alloc.laneOf, beq_eq_decide]
  unfold placementReport
  rw [← found]
  cases a.placementState c g with
  | none => simp [optionalField, be]
  | some st =>
    cases st with
    | waiting => simp [optionalField, be]
    | shed => simp [optionalField, be]
    | held => cases a.laneOf g c <;> simp [optionalField, be]

/-- What an activation makes of the hub (R12, R13). -/
theorem caronDone_effect (s : State) (c : CarrierId) :
    let t := s.caronDone c
    (t.ctb.get c).state = .active ∧
    (∀ d : CarrierId, (t.ctb.get d).fields = (s.ctb.get d).fields ∧ (d ≠ c → (t.ctb.get d).state = (s.ctb.get d).state) ∧
      ∀ g : GroupId, ((t.ctb.get d).placements.get g).map (·.trim) = ((s.ctb.get d).placements.get g).map (·.trim)) ∧
    (∀ g : GroupId, ((s.ctb.get c).placements.get g).isSome →
      if (s.ctb.get c).fields.kind = .mobile ∧ s.ict.row.shedRank ≤ (s.ctb.get c).fields.rank then
        t.alloc.placementState c g = some .shed ∧ t.lal.get g = s.lal.get g
      else t.alloc.placementState c g = some .waiting ∨ t.alloc.placementState c g = some .held) ∧
    (∀ g : GroupId, configOf t.lal g = configOf s.lal g) ∧
    ∀ g : GroupId, (s.ctb.get c).placements.get g = none → t.lal.get g = s.lal.get g ∧ t.ucb.gates.get g = s.ucb.gates.get g := by
  let a := s.alloc
  let row := s.ict.row
  refine ⟨?_, fun d => ⟨a.fields_activate row c d, fun ne => ?_, a.trim_activate row c d⟩, fun g record => ?_,
    (a.activate_records row c).config, fun g outside => ?_⟩
  · exact (a.state_activate row c c).trans (if_pos rfl)
  · exact (a.state_activate row c d).trans (if_neg ne)
  · exact Alloc.activate_state (a := a) row record
  · have same := Alloc.sameIn_activate (a := a) row (Alloc.not_mem_groups outside)
    exact ⟨same.group, same.gates⟩

/-! ### CAROFF -/

/-- The hub after an accepted CAROFF. -/
def State.caroffDone (s : State) (c : CarrierId) : State :=
  let a := s.alloc.deactivate s.ict.row c
  { s with
    ctb := a.ctb, lal := a.lal, mga := s.mga.raiseAll a.out
    ucb := { s.ucb with gates := a.gates, history := s.ucb.history.put c [] } }

theorem caroff_of_active {s : State} {c : CarrierId} (active : (s.ctb.get c).state = .active) :
    caroff c.val s = okWith (s.caroffDone c) [] := by
  have active : ¬(s.ctb.get c).state ≠ .active := not_not.2 active
  simp only [caroff, index_val, if_neg active]
  rfl

theorem caroff_of_inactive {s : State} {c : CarrierId} (inactive : (s.ctb.get c).state ≠ .active) :
    caroff c.val s = refuse .state s := by
  simp only [caroff, index_val, if_pos inactive]

/-- What a release makes of the hub: with the agreement of R17, a carrier without placement states waits nowhere and owns no lane (R14). -/
theorem caroffDone_effect {s : State} (law : s.placementsOk) (c : CarrierId) :
    let t := s.caroffDone c
    (t.ctb.get c).state = .defined ∧
    (∀ g : GroupId, t.alloc.placementState c g = none ∧ c ∉ t.alloc.waiting g ∧ ∀ l : LaneId, (t.alloc.lane g l).owner ≠ some c) ∧
    (∀ d : CarrierId, (t.ctb.get d).fields = (s.ctb.get d).fields ∧ (d ≠ c → (t.ctb.get d).state = (s.ctb.get d).state) ∧
      ∀ g : GroupId, ((t.ctb.get d).placements.get g).map (·.trim) = ((s.ctb.get d).placements.get g).map (·.trim)) ∧
    (∀ g : GroupId, configOf t.lal g = configOf s.lal g) ∧
    ∀ g : GroupId, (s.ctb.get c).placements.get g = none → t.lal.get g = s.lal.get g ∧ t.ucb.gates.get g = s.ucb.gates.get g := by
  let a := s.alloc
  let row := s.ict.row
  have ok : (a.deactivate row c).Ok := ((placementsOk_iff s).1 law).deactivate row c
  have state : ((a.deactivate row c).ctb.get c).state = .defined := (a.state_deactivate row c c).trans (if_pos rfl)
  refine ⟨state, fun g => ?_, fun d => ⟨a.fields_deactivate row c d, fun ne => ?_, a.trim_deactivate row c d⟩,
    (a.exits_records row c).config, fun g outside => ?_⟩
  · have stateless : (a.deactivate row c).placementState c g = none := by
      rw [← Option.not_isSome_iff_eq_none, ok.stated, state]
      exact fun active => CarrierState.noConfusion active.1
    exact ⟨stateless, (ok.agrees g).absent stateless⟩
  · exact (a.state_deactivate row c d).trans (if_neg ne)
  · have same := Alloc.sameIn_deactivate (a := a) row (Alloc.not_mem_groups outside)
    exact ⟨same.group, same.gates⟩

end Sys2Proof.Machine

namespace Sys2Proof.Proofs
open Sys2Proof Sys2Proof.Machine

/-- Settles O7: the checks are those of `Alloc.activationRefusal`, the walk is `Alloc.activate`, whose kind and rank never change on the way,
and the run of the arbiter follows the rules of its two steps. -/
theorem caronActivatesTheCarrier : Obligations.CaronActivatesTheCarrier := by
  refine ⟨fun s p tag c h => ?_, fun a g row c rest => ?_⟩
  · intro r defined anyGroup served ownDest
    have checks : s.alloc.activationRefusal c = _ := Alloc.activationRefusal_eq
    have pastState := fun hd : defined => checks.trans (if_neg (not_not.2 hd))
    have pastSet := fun hd (ha : anyGroup) => (pastState hd).trans (if_neg (not_not.2 ha))
    have pastForms := fun hd ha (hs : served) => (pastSet hd ha).trans (if_neg (not_not.2 hs))
    have pass := fun hd ha hs (ho : ownDest) => (pastForms hd ha hs).trans (if_neg (not_not.2 ho))
    have refused : ∀ {st}, s.alloc.activationRefusal c = some st → exec (.caron p tag c.val) s = .next (s.answered p tag 3 st []) :=
      fun refusal => exec_heard h (.caron c.val) (caron_of_refusal refusal)
    refine ⟨fun n far => ?_, fun hd => ?_, fun hd ha => ?_, fun hd ha hs => ?_, fun hd ha hs ho => ?_, fun hd ha hs ho => ?_⟩
    · exact exec_heard h (.caron n) (by simp only [requestAct, caron, index_eq_none far]; rfl)
    · exact refused (checks.trans (if_pos hd))
    · exact refused ((pastState hd).trans (if_pos ha))
    · exact refused ((pastSet hd ha).trans (if_pos hs))
    · exact refused ((pastForms hd ha hs).trans (if_pos ho))
    · intro groups enter b t
      have each : ∀ x g, (x.ctb.get c).fields = r.fields → enter x g = Alloc.enter s.ict.row c x g := by
        intro x g same
        simp only [enter, Alloc.enter, Alloc.shedable_iff, same]
      have walk : b = s.alloc.activate s.ict.row c := by
        rw [Alloc.activate_eq, (Alloc.withState_records s.alloc c .active).2]
        exact Alloc.foldl_enter_of_fields s.ict.row c each groups (s.alloc.withState c .active)
          (Alloc.fields_withState s.alloc c c .active)
      have done : t = s.caronDone c := by simp only [t, walk]; rfl
      refine ⟨?_, ?_⟩
      · rw [done, walk]
        refine exec_heard h (.caron c.val) ((caron_of_pass (pass hd ha hs ho)).trans ?_)
        rw [okWith, funext (placementReport_eq _ c)]
        generalize s.caronDone c = after, s.alloc.activate s.ict.row c = d
        rfl
      · rw [done]
        exact caronDone_effect s c
  · intro given kindOf rankOf mobileAt mayPreempt
    have may : mayPreempt ↔ a.mayPreempt row c = true := Alloc.mayPreempt_iff.symm
    have mobile : ∀ l v k, a.victimAt g l = some (v, k) ↔ mobileAt l v ∧ rankOf v = k := by
      intro l v k
      rw [Alloc.victimAt_eq_some]
      simp only [mobileAt, kindOf, rankOf, and_assoc]
    refine ⟨rfl, Alloc.grantStep_of_busy c rest, fun l => Alloc.grantStep_of_free c rest, fun no => ?_, fun yes noMobile => ?_,
      fun l v yes victim greatest => ?_, fun l => Alloc.give_eq a g l c, fun l v => Alloc.handOver_eq a g l v c⟩
    · exact Alloc.preemptStep_of_not rest (mt may.2 no)
    · refine Alloc.preemptStep_of_none rest (may.1 yes) (Alloc.victim_eq_none fun l => ?_)
      rw [Option.eq_none_iff_forall_not_mem]
      exact fun u hu => noMobile l u.1 ((mobile l u.1 u.2).1 hu).1
    · refine Alloc.preemptStep_of_victim rest (may.1 yes) (Alloc.victim_eq_some ((mobile l v _).2 ⟨victim, rfl⟩) fun m w k found => ?_)
      obtain ⟨owner, rfl⟩ := (mobile m w k).1 found
      exact greatest m w owner

/-- Settles O8: the walk is `Alloc.deactivate`, and `caroffDone_effect` says what it leaves. -/
theorem caroffReleasesTheCarrier : Obligations.CaroffReleasesTheCarrier := by
  intro s p tag c h
  refine ⟨fun n far => ?_, fun inactive => ?_, fun law active => ?_⟩
  · exact exec_heard h (.caroff n) (by simp only [requestAct, caroff, index_eq_none far]; rfl)
  · exact exec_heard h (.caroff c.val) (caroff_of_inactive inactive)
  · intro free leave b t
    have each : leave = Alloc.exitGroup s.ict.row c := by
      funext x g
      unfold Alloc.exitGroup
      rw [Alloc.releaseOf_eq]
      simp only [leave]
      cases x.placementState c g with
      | none => rfl
      | some st => cases st <;> rfl
    have walk : b = (s.alloc.groups c).foldl (Alloc.exitGroup s.ict.row c) s.alloc := by
      simp only [b, each]; rfl
    have done : t = s.caroffDone c := by simp only [t, walk]; rfl
    rw [done]
    exact ⟨exec_heard h (.caroff c.val) (caroff_of_active active), caroffDone_effect law c⟩

end Sys2Proof.Proofs
end

section
/-! GRPSET: its checks in the order in which they are made, and what it makes of the hub where they let it through (R24 to R26). -/
namespace Sys2Proof.Machine

theorem groupAfter_portBefore {g : GroupId} (odd : g.val % 2 = 1) : groupAfter (portBefore g) = g := by
  have next : (portBefore g).val + 1 = g.val := by simp only [portBefore]; omega
  rw [groupAfter, dif_pos (by omega)]
  exact Fin.ext next

theorem groupAfter_eq {g h : GroupId} (next : h.val = g.val + 1) : groupAfter g = h := by
  rw [groupAfter, dif_pos (by omega)]
  exact Fin.ext next.symm

theorem portBefore_eq {g h : GroupId} (next : h.val + 1 = g.val) : portBefore g = h :=
  Fin.ext (by simp only [portBefore]; omega)

/-- Some carrier is ACTIVE in the group. -/
abbrev State.ActiveIn (s : State) (g : GroupId) : Prop :=
  ∃ c : CarrierId, (s.ctb.get c).state = .active ∧ ((s.ctb.get c).placements.get g).isSome

/-- The hub after a GRPSET that keeps form and remote count (R26). -/
def State.tuned (s : State) (g : GroupId) (cfg : GroupConfig) : State :=
  { s with
    lal := s.lal.edit g fun x => { x with config := cfg }
    dmx := s.dmx.edit g fun x => { x with factor := max x.factor cfg.floor } }

/-- The hub after a GRPSET that changes one of them (R25). -/
def State.setUpAnew (s : State) (g : GroupId) (cfg : GroupConfig) : State :=
  let t := s.tuned g cfg
  t.withSpans ((List.finRange 8).foldl (Spans.dropPort s.lal t.lal) (s.spans.setUpGroup cfg g))

theorem configOf_tuned (s : State) (g h : GroupId) (cfg : GroupConfig) :
    configOf (s.tuned g cfg).lal h = if g = h then cfg else configOf s.lal h := by
  simp only [configOf, State.tuned, Table.get_edit]
  split <;> rfl

section Grpset
variable {s : State} {a : GrpsetArgs} {g : GroupId} {form : GroupForm}

/-- The list of clamped fields of the answer (R24, R210). -/
def grpsetClamped (a : GrpsetArgs) (cfg : GroupConfig) : List Byte :=
  changedFields [(3, cfg.ceiling != a.ceiling), (4, cfg.floor != a.floor), (5, cfg.guard != a.guard), (6, cfg.missLimit != a.missLimit)]

theorem grpset_of_unnamed (h : 8 ≤ a.group ∨ codeForm a.form = none) : grpset a s = refuse .range s := by
  unfold grpset
  split
  · next group named =>
    obtain far | unnamed := h
    · rw [index_eq_none far] at group; cases group
    · rw [unnamed] at named; cases named
  · rfl

theorem grpset_of_refusal {st : Status} (group : a.group = g.val) (named : codeForm a.form = some form)
    (refusal : grpsetRefusal s g a form = some st) : grpset a s = refuse st s := by
  simp only [grpset, group, index_val, named, refusal]

theorem grpset_of_pass (group : a.group = g.val) (named : codeForm a.form = some form) (pass : grpsetRefusal s g a form = none) :
    grpset a s = okWith
      (if form ≠ (configOf s.lal g).form ∨ a.remotes ≠ (configOf s.lal g).remotes then s.setUpAnew g (grpsetConfig a form)
        else s.tuned g (grpsetConfig a form))
      (grpsetClamped a (grpsetConfig a form)) := by
  simp only [grpset, group, index_val, named, pass]
  rfl

/-- The checks of R24 from the second on, in the order in which they are made. -/
theorem grpsetRefusal_eq : grpsetRefusal s g a form =
    if a.remotes < 1 ∨ 6 < a.remotes then some .range
    else if form = .ring ∧ g.val % 2 = 1 then some .range
    else if form = .ring ∧ (configOf s.lal (groupAfter g)).form ≠ .unused then some .state
    else if form ≠ .unused ∧ g.val % 2 = 1 ∧ (configOf s.lal (portBefore g)).form = .ring then some .state
    else if (form ≠ (configOf s.lal g).form ∨ a.remotes ≠ (configOf s.lal g).remotes) ∧ s.ActiveIn g then some .state
    else none := by
  have busy : ((List.finRange 64).any fun c => (s.ctb.get c).state = .active && ((s.ctb.get c).placements.get g).isSome) = true ↔
      s.ActiveIn g := by
    simp only [State.ActiveIn, List.any_eq_true, List.mem_finRange, true_and, Bool.and_eq_true, decide_eq_true_eq]
  simp only [grpsetRefusal, busy]

/-- The forms that R24 allows a group beside its neighbours. -/
def State.allowsForm (s : State) (g : GroupId) (form : GroupForm) : Prop :=
  (form = .ring → g.val % 2 = 0 ∧ (configOf s.lal (groupAfter g)).form = .unused) ∧
  (form ≠ .unused → g.val % 2 = 1 → (configOf s.lal (portBefore g)).form ≠ .ring)

/-- With remote count and form allowed, the last check alone is left. -/
theorem grpsetRefusal_of_allowed (low : 1 ≤ a.remotes) (high : a.remotes ≤ 6) (allowed : s.allowsForm g form) :
    grpsetRefusal s g a form =
      if (form ≠ (configOf s.lal g).form ∨ a.remotes ≠ (configOf s.lal g).remotes) ∧ s.ActiveIn g then some .state else none := by
  obtain ⟨ring, used⟩ := allowed
  rw [grpsetRefusal_eq, if_neg (by omega), if_neg, if_neg, if_neg]
  · exact fun ⟨isUsed, odd, before⟩ => used isUsed odd before
  · exact fun ⟨isRing, next⟩ => next (ring isRing).2
  · exact fun ⟨isRing, odd⟩ => by have := (ring isRing).1; omega

/-- What the checks of R24 guarantee. -/
theorem allowed_of_pass (pass : grpsetRefusal s g a form = none) :
    s.allowsForm g form ∧ ((form ≠ (configOf s.lal g).form ∨ a.remotes ≠ (configOf s.lal g).remotes) → ¬s.ActiveIn g) := by
  rw [grpsetRefusal_eq] at pass
  split_ifs at pass with _ odd next before busy
  refine ⟨⟨fun ring => ⟨?_, ?_⟩, fun used isOdd isRing => before ⟨used, isOdd, isRing⟩⟩, fun change active => busy ⟨change, active⟩⟩
  · have notOdd : ¬g.val % 2 = 1 := fun isOdd => odd ⟨ring, isOdd⟩
    omega
  · exact by_contra fun unfit => next ⟨ring, unfit⟩

/-- A group keeps its form beside its neighbours (R23). -/
theorem allowsForm_own (agree : formsAgree fun x => (configOf s.lal x).form) : s.allowsForm g (configOf s.lal g).form := by
  refine ⟨agree g, fun used odd ring => used ?_⟩
  have next := (agree (portBefore g) ring).2
  rwa [groupAfter_portBefore odd] at next

end Grpset

/-! ### The ports that cease to be enabled (R25) -/

/-- A port that ceases to be enabled as the configurations change. -/
def ceases (old new : Table Group 8) (p : SpanId) : Bool := enabled old p && !enabled new p

/-- A port made DOWN, its counters kept (R25, R69; entry 17). -/
def SpanPort.dropped (x : SpanPort) : SpanPort := { x with link := .down, goodRun := 0, badRun := 0, arrived := false, quiet := 0 }

section DropPort
variable {old new : Table Group 8}

theorem Spans.dropPort_of_stays {p : SpanId} (stays : ceases old new p = false) (v : Spans) : v.dropPort old new p = v :=
  if_neg (Bool.eq_false_iff.1 stays)

theorem Spans.dropPort_of_ceases {p : SpanId} (gone : ceases old new p = true) (v : Spans) :
    v.dropPort old new p =
      { v with
        ports := v.ports.put p (v.ports.get p).dropped
        out := v.out ++ if (v.ports.get p).link = .down then [] else [.spanState p .down] } := by
  refine (if_pos gone).trans ?_
  dsimp only
  split
  · rw [List.append_nil]; rfl
  · rfl

/-- The ports that cease to be enabled, one after the other: each goes DOWN, and says so where it was not. -/
theorem foldl_dropPort (ps : List SpanId) : ∀ v : Spans, ps.Nodup →
    ps.foldl (Spans.dropPort old new) v =
      { v with
        ports := .make fun q => if q ∈ ps ∧ ceases old new q = true then (v.ports.get q).dropped else v.ports.get q
        out := v.out ++ ((ps.filter fun q => ceases old new q && (v.ports.get q).link != .down).map fun q => .spanState q .down) } := by
  induction ps with
  | nil =>
    intro v _
    have ports : v.ports = .make v.ports.get := Table.ext fun q => (Table.get_make _ q).symm
    simp [← ports]
  | cons p ps ih =>
    intro v nodup
    obtain ⟨fresh, nodup⟩ := List.nodup_cons.1 nodup
    rw [List.foldl_cons, ih _ nodup]
    cases gone : ceases old new p with
    | false =>
      have same : ∀ q, (q ∈ ps ∧ ceases old new q = true) = (q ∈ p :: ps ∧ ceases old new q = true) := by
        intro q
        obtain rfl | ne := eq_or_ne q p
        · simp [gone]
        · simp [ne]
      simp only [Spans.dropPort_of_stays gone, same, List.filter_cons, gone, Bool.false_and, Bool.false_eq_true, if_false]
    | true =>
      have other : ∀ q ∈ ps, (v.ports.put p (v.ports.get p).dropped).get q = v.ports.get q :=
        fun q hq => Table.get_put_ne _ _ fun e => fresh (e ▸ hq)
      have ports : ∀ q, (if q ∈ ps ∧ ceases old new q = true then ((v.ports.put p (v.ports.get p).dropped).get q).dropped
          else (v.ports.put p (v.ports.get p).dropped).get q) =
          if q ∈ p :: ps ∧ ceases old new q = true then (v.ports.get q).dropped else v.ports.get q := by
        intro q
        obtain rfl | ne := eq_or_ne q p
        · simp [fresh, gone]
        · simp [ne, ne.symm]
      have notices : (ps.filter fun q => ceases old new q && ((v.ports.put p (v.ports.get p).dropped).get q).link != .down) =
          ps.filter fun q => ceases old new q && (v.ports.get q).link != .down :=
        List.filter_congr fun q hq => by rw [other q hq]
      rw [Spans.dropPort_of_ceases gone]
      simp only [ports, notices, List.filter_cons, gone, Bool.true_and]
      by_cases down : (v.ports.get p).link = .down
      · simp [down]
      · simp [down]

end DropPort

theorem ceases_iff {old new : Table Group 8} {q : SpanId} : ceases old new q = true ↔ enabled old q = true ∧ enabled new q = false := by
  simp only [ceases, Bool.and_eq_true, Bool.not_eq_true']

/-- Everything that setting up anew makes of the hub (R25). -/
theorem setUpAnew_eq (s : State) (g : GroupId) (cfg : GroupConfig) :
    let new := (s.tuned g cfg).lal
    s.setUpAnew g cfg =
      { s.tuned g cfg with
        sif := { s.sif with
          ports := .make fun q => if ceases s.lal new q = true then (s.sif.ports.get q).dropped else s.sif.ports.get q
          remotes := s.sif.remotes.put g (setUpRemotes cfg) }
        ucb := { s.ucb with window := s.ucb.window.map fun x => { x with filed := x.filed.filter fun f => f.group != g } }
        mga := s.mga.raiseAll (((List.finRange 8).filter fun q =>
          ceases s.lal new q && (s.sif.ports.get q).link != .down).map fun q => .spanState q .down) } := by
  dsimp only
  rw [State.setUpAnew, foldl_dropPort _ _ (List.nodup_finRange 8)]
  simp only [List.mem_finRange, true_and]
  rfl

/-- A remote set up anew: side B is used in a RING alone (R25). -/
theorem setUpRemotes_get (c : GroupConfig) (k : Pos) :
    (setUpRemotes c).get k =
      if c.form ≠ .unused ∧ k.val < c.remotes then ⟨.a, false, none, none, .new, if c.form = .ring then .new else .idle⟩
      else ⟨.a, false, none, none, .idle, .idle⟩ := by
  have used : c.configured k = true ↔ c.form ≠ .unused ∧ k.val < c.remotes := by
    simp only [GroupConfig.configured, Bool.and_eq_true, decide_eq_true_eq]
  rw [setUpRemotes, Table.get_make, Remote.setUp]
  by_cases h : c.configured k = true
  · simp only [if_pos (used.1 h), h, if_true, Bool.true_and, beq_iff_eq]
  · simp only [if_neg (mt used.2 h), Bool.eq_false_iff.2 h, Bool.false_and, Bool.false_eq_true, if_false]

end Sys2Proof.Machine

namespace Sys2Proof.Proofs
open Sys2Proof Sys2Proof.Machine

/-- Settles O10: each refusal is the first check that fails, and a consistent configuration that stays passes them all. -/
theorem grpsetTunesABusyGroup : Obligations.GrpsetTunesABusyGroup := by
  intro s p tag a h
  have refused : ∀ {g form st}, a.group = g.val → codeForm a.form = some form → grpsetRefusal s g a form = some st →
      exec (.grpset p tag a) s = .next (s.answered p tag 7 st []) :=
    fun group named refusal => exec_heard h (.grpset a) (grpset_of_refusal group named refusal)
  refine ⟨fun bad => ?_, fun g form group named low high => ⟨fun ring odd => ?_, fun ring even next => ?_, fun chain odd before => ?_⟩,
    fun g group agree named count low high => ?_⟩
  · by_cases unnamed : 8 ≤ a.group ∨ codeForm a.form = none
    · exact exec_heard h (.grpset a) (grpset_of_unnamed unnamed)
    · obtain ⟨near, form⟩ := not_or.1 unnamed
      obtain ⟨form, named⟩ := Option.ne_none_iff_exists'.1 form
      have count : a.remotes < 1 ∨ 6 < a.remotes := by
        obtain far | unnamed | count := bad
        · exact absurd far near
        · rw [named] at unnamed; cases unnamed
        · omega
      exact refused (g := ⟨a.group, not_le.1 near⟩) rfl named (grpsetRefusal_eq.trans (if_pos count))
  · refine refused group named ?_
    rw [grpsetRefusal_eq, if_neg (by omega), if_pos ⟨ring, odd⟩]
  · obtain ⟨n, number, used⟩ := next
    refine refused group named ?_
    rw [grpsetRefusal_eq, if_neg (by omega), if_neg (by omega), if_pos ⟨ring, groupAfter_eq number ▸ used⟩]
  · obtain ⟨n, number, ring⟩ := before
    have plain : form ≠ .ring := by rw [chain]; decide
    have used : form ≠ .unused := by rw [chain]; decide
    refine refused group named ?_
    rw [grpsetRefusal_eq, if_neg (by omega), if_neg fun r => plain r.1, if_neg fun r => plain r.1,
      if_pos ⟨used, odd, portBefore_eq number ▸ ring⟩]
  · intro cfg
    have stays : ¬((configOf s.lal g).form ≠ (configOf s.lal g).form ∨ a.remotes ≠ (configOf s.lal g).remotes) := by simp [count]
    have pass := (grpsetRefusal_of_allowed low high (allowsForm_own agree)).trans (if_neg fun busy => stays busy.1)
    have stored : grpsetConfig a (configOf s.lal g).form = cfg := by simp only [grpsetConfig, maxPower, count, cfg]
    have answer := grpset_of_pass group named pass
    rw [stored, if_neg stays] at answer
    exact exec_heard h (.grpset a) answer

/-- Settles O11: `setUpAnew_eq` writes out the hub that an accepted change leaves. -/
theorem grpsetSetsUpRemotesAnew : Obligations.GrpsetSetsUpRemotesAnew := by
  intro s p tag a g form h group named low high ring used change
  have checks := grpsetRefusal_of_allowed (s := s) (g := g) (a := a) low high ⟨ring, used⟩
  refine ⟨fun busy => ?_, fun quiet => ?_⟩
  · exact exec_heard h (.grpset a) (grpset_of_refusal group named (checks.trans (if_pos ⟨change, busy⟩)))
  · intro cfg
    have idle : ¬s.ActiveIn g := fun ⟨c, active, record⟩ => by rw [quiet c active] at record; cases record
    have answer := grpset_of_pass group named (checks.trans (if_neg fun busy => idle busy.2))
    rw [if_pos change] at answer
    refine ⟨s.setUpAnew g cfg, exec_heard h (.grpset a) answer, ?_⟩
    rw [setUpAnew_eq]
    refine ⟨?_, ?_, ?_, ?_, fun o other => ?_, fun k => ?_, rfl, fun q => ?_, rfl, rfl, rfl, rfl, rfl, rfl, rfl, rfl, rfl, rfl⟩
    · exact (configOf_tuned s g g cfg).trans (if_pos rfl)
    · exact Table.get_edit_self _ _ _
    · simp [State.tuned]
    · simp [State.tuned]
    · simp [State.tuned, other.symm]
    · have own := setUpRemotes_get cfg k
      rw [← Table.get_put_self s.sif.remotes g (setUpRemotes cfg)] at own
      exact ⟨fun inUse => own.trans (if_pos inUse), fun spare => own.trans (if_neg spare)⟩
    · simp only [Table.get_make, ceases_iff]
      split <;> rfl

end Sys2Proof.Proofs
end

section
/-! The rows LANE_GUARD_EXPIRY and HANG_EXPIRY, and the guard step of a slot (R31, R102). -/
namespace Sys2Proof.Machine

theorem Lane.expiring_iff {x : Lane} : x.expiring = true ↔ x.state = .guard ∧ x.guardCount ≤ 1 := by
  simp only [Lane.expiring, Bool.and_eq_true, decide_eq_true_eq]

theorem laneGuardExpiry_eq (g : GroupId) (l : LaneId) (s : State) :
    laneGuardExpiry g l s =
      if ((s.lal.get g).lanes.get l).state = .guard ∧ ((s.lal.get g).lanes.get l).guardCount ≤ 1 then
        { s with lal := s.lal.edit g fun y => { y with lanes := y.lanes.put l ((s.lal.get g).lanes.get l).expire } }
      else s := by
  simp only [laneGuardExpiry, Lane.expiring_iff, Table.edit]

theorem hangExpiry_eq (g : GroupId) (l : LaneId) (k : Pos) (s : State) :
    hangExpiry g l k s =
      if (((s.ucb.gates.get g).get l).get k).state = .hang ∧ (((s.ucb.gates.get g).get l).get k).hang ≤ 1 then
        { s with ucb := { s.ucb with gates := s.ucb.gates.edit g fun y => y.edit l fun z => z.put k ⟨.closed, 0⟩ } }
      else s := rfl

theorem Lane.guardStep_eq (x : Lane) :
    x.guardStep = if x.state = .guard then if x.guardCount ≤ 1 then x.expire else { x with guardCount := x.guardCount - 1 } else x := by
  unfold Lane.guardStep
  split
  · next guarded => rw [if_pos guarded]
  · next other => rw [if_neg other]

end Sys2Proof.Machine

namespace Sys2Proof.Proofs
open Sys2Proof Sys2Proof.Machine

/-- Settles O16: outside a reset each row is its own last step, and the guard step of a slot goes lane by lane. -/
theorem guardAndHangExpire : Obligations.GuardAndHangExpire := by
  refine ⟨fun s g l awake => ⟨?_, fun k => ?_⟩, fun t g => ?_⟩
  · exact (eventCommand_awake awake _).trans (congrArg _ (laneGuardExpiry_eq g l s))
  · exact (eventCommand_awake awake _).trans (congrArg _ (hangExpiry_eq g l k s))
  · simp only [guardStep, Table.get_make, Lane.guardStep_eq, true_and]
    exact fun l => rfl

end Sys2Proof.Proofs
end

section
/-! The parts of which every step is made. A law is kept by every step once each part keeps it. -/
namespace Sys2Proof.Machine

/-- The hub once a slot's works are done and its span frames sent, before its tail. -/
def slotWorked (n : FrameNo) (ord : SlotOrder) (s : State) : State :=
  let c := openSlot n ord s
  let i := slotInput n s c.2.active
  sendSpans i (works ord.works i c.1)

/-- What one part of a step makes of the hub: a request's own effects and its answer, the stages of a slot event, or an event whole. -/
inductive StepPart : State → State → Prop
  | taken {s} (rest : List Instr) : StepPart s { s with pending := rest }
  | requested {s} (v : State → State) (r : Request) : StepPart s (requestAct v r s).state
  | responded {s} (p : TrunkId) (x : Response) : StepPart s (s.respond p x)
  | refreshed {s} : StepPart s s.refreshFrames
  | worked {s} (n : FrameNo) (ord : SlotOrder) : StepPart s (slotWorked n ord s)
  | sampled {s} (n : FrameNo) (line : Bool) : StepPart s (lineSample n line s)
  | completed {s} (n : FrameNo) : StepPart s (completeFrames n s)
  | restarted {s} (f : RestartForm) : StepPart s (restartNow f s)
  | holdoverExpiry {s} : StepPart s (holdoverExpiry s)
  | laneGuardExpiry {s} (g : GroupId) (l : LaneId) : StepPart s (laneGuardExpiry g l s)
  | overBudget {s} (g : GroupId) : StepPart s (overBudget g s)
  | missLimitReached {s} (g : GroupId) (k : Pos) (sd : Side) : StepPart s (missLimitReached g k sd s)
  | hangExpiry {s} (g : GroupId) (l : LaneId) (k : Pos) : StepPart s (hangExpiry g l k s)
  | fadeEnd {s} (id : PlayerId) : StepPart s (fadeEnd id s)
  | gapEnd {s} (id : PlayerId) : StepPart s (gapEnd id s)
  | liveSpeechLoss {s} (id : PlayerId) : StepPart s (liveSpeechLoss id s)
  | trunkFrameArrival {s} (p : TrunkId) (bs : List Byte) : StepPart s (trunkFrameArrival p bs s)
  | spanUplinkFrameArrival {s} (p : SpanId) (bs : List Byte) : StepPart s (spanUplinkFrameArrival p bs s)
  | storeProgramCompletion {s} (r : StoreResult) : StepPart s (storeProgramCompletion r s)
  | storeEraseCompletion {s} (r : StoreResult) : StepPart s (storeEraseCompletion r s)
  | settingsSaveCompletion {s} (r : StoreResult) : StepPart s (settingsSaveCompletion r s)
  | powerOn {s} : StepPart s (powerOn s)
  | lineReset {s} : StepPart s (lineReset s)
  | resetInputRelease {s} : StepPart s (resetInputRelease s)
  | suppliesSteady {s} : StepPart s (suppliesSteady s)

/-- Parts one after the other. -/
abbrev StepParts : State → State → Prop := Relation.ReflTransGen StepPart

/-! ### Requests and events -/

theorem serve_parts (v : State → State) (p : TrunkId) (tag : Nat) (r : Request) (s : State) :
    StepParts s (serve p tag (requestCode r) (requestAct v r) s) := by
  unfold serve
  obtain ⟨-, refused⟩ | ⟨-, -, -, refused⟩ | ⟨-, -, heard⟩ := check_cases p tag (requestCode r) (requestAct v r) s
  · rw [refused]; exact .single (.responded p _)
  · rw [refused]; exact .single (.responded p _)
  · rw [heard]; exact .tail (.single (.requested v r)) (.responded p _)

theorem requestCommand_parts {p : TrunkId} {tag : Nat} {s t : State} (r : Request)
    (h : requestCommand p tag (requestCode r) (requestAct id r) s = .next t) : StepParts s t := by
  cases h
  split
  · exact .refl
  · exact .tail (serve_parts id p tag r s) .refreshed

theorem eventCommand_parts {act : State → State} {s t : State} (parts : StepParts s (act s)) (h : eventCommand act s = .next t) :
    StepParts s t := by
  cases h
  split
  · exact .refl
  · exact parts

theorem restartTakesEffect_parts (s : State) : StepParts s (restartTakesEffect s) := by
  unfold restartTakesEffect
  split
  · exact .single (.restarted _)
  · exact .refl

/-! ### The slot event -/

theorem takeFrameCell_parts (v : State → State) (p : TrunkId) (f : Option (List Byte)) (s : State) :
    StepParts s (takeFrameCell v p f s) := by
  unfold takeFrameCell
  split
  · unfold takeCell
    split
    · exact .single (.responded p _)
    · exact .refl
    · exact .single (.responded p _)
    · exact serve_parts v p _ _ s
  · exact .refl

/-- The line sample and the two cells, in any order. -/
theorem tail_parts (o : TailOrder) {line reqA reqB : State → State} (hl : ∀ s, StepParts s (line s))
    (ha : ∀ s, StepParts s (reqA s)) (hb : ∀ s, StepParts s (reqB s)) (s : State) : StepParts s (tail o line reqA reqB s) := by
  cases o with
  | lineAB => exact ((hl _).trans (ha _)).trans (hb _)
  | lineBA => exact ((hl _).trans (hb _)).trans (ha _)
  | aLineB => exact ((ha _).trans (hl _)).trans (hb _)
  | bLineA => exact ((hb _).trans (hl _)).trans (ha _)
  | abLine => exact ((ha _).trans (hb _)).trans (hl _)
  | baLine => exact ((hb _).trans (ha _)).trans (hl _)

theorem slotEvent_parts (n : FrameNo) (line : Bool) (ord : SlotOrder) (s : State) : StepParts s (slotEvent n line ord s) :=
  .tail (.trans (.single (.worked n ord)) (tail_parts ord.tail (fun _ => .single (.sampled n line))
    (takeFrameCell_parts _ .a _) (takeFrameCell_parts _ .b _) _)) (.completed n)

theorem slot_parts (line : Bool) (ord : SlotOrder) (s : State) : StepParts s (slot line ord s) := by
  unfold slot
  split
  · exact .single (.restarted _)
  · exact slotEvent_parts _ _ _ s

/-! ### The step -/

/-- The parts of any command. -/
theorem exec_parts {i : Instr} {s t : State} (h : exec i s = .next t) : StepParts s t := by
  cases i with
  | slot line order => exact eventCommand_parts (slot_parts line order s) h
  | holdoverExpiry => exact eventCommand_parts (.single .holdoverExpiry) h
  | laneGuardExpiry g l => exact eventCommand_parts (.single (.laneGuardExpiry g l)) h
  | overBudget g => exact eventCommand_parts (.single (.overBudget g)) h
  | missLimitReached g k sd => exact eventCommand_parts (.single (.missLimitReached g k sd)) h
  | hangExpiry g l k => exact eventCommand_parts (.single (.hangExpiry g l k)) h
  | fadeEnd p => exact eventCommand_parts (.single (.fadeEnd p)) h
  | gapEnd p => exact eventCommand_parts (.single (.gapEnd p)) h
  | liveSpeechLoss p => exact eventCommand_parts (.single (.liveSpeechLoss p)) h
  | trunkFrameArrival p f => exact eventCommand_parts (.single (.trunkFrameArrival p f)) h
  | spanUplinkFrameArrival p f => exact eventCommand_parts (.single (.spanUplinkFrameArrival p f)) h
  | rdrec p tag sel part => exact requestCommand_parts (.rdrec sel part) h
  | carset p tag a => exact requestCommand_parts (.carset a) h
  | caron p tag n => exact requestCommand_parts (.caron n) h
  | caroff p tag n => exact requestCommand_parts (.caroff n) h
  | carclr p tag n => exact requestCommand_parts (.carclr n) h
  | trim p tag n g v => exact requestCommand_parts (.trim n g v) h
  | grpset p tag a => exact requestCommand_parts (.grpset a) h
  | sprst p tag n => exact requestCommand_parts (.sprst n) h
  | incset p tag n => exact requestCommand_parts (.incset n) h
  | incclr p tag => exact requestCommand_parts .incclr h
  | profset p tag a => exact requestCommand_parts (.profset a) h
  | annc p tag a => exact requestCommand_parts (.annc a) h
  | ancan p tag n => exact requestCommand_parts (.ancan n) h
  | voxset p tag a => exact requestCommand_parts (.voxset a) h
  | pgopen p tag n => exact requestCommand_parts (.pgopen n) h
  | pgdata p tag off bs => exact requestCommand_parts (.pgdata off bs) h
  | pgcommit p tag => exact requestCommand_parts .pgcommit h
  | blkerase p tag n => exact requestCommand_parts (.blkerase n) h
  | blkguard p tag n bar => exact requestCommand_parts (.blkguard n bar) h
  | msgdef p tag a => exact requestCommand_parts (.msgdef a) h
  | msgclr p tag n => exact requestCommand_parts (.msgclr n) h
  | trksel p tag n => exact requestCommand_parts (.trksel n) h
  | timset p tag limit v => exact requestCommand_parts (.timset limit v) h
  | save p tag => exact requestCommand_parts .save h
  | restart p tag n => exact requestCommand_parts (.restart n) h
  | causeclr p tag => exact requestCommand_parts .causeclr h
  | storeProgramCompletion r => exact eventCommand_parts (.single (.storeProgramCompletion r)) h
  | storeEraseCompletion r => exact eventCommand_parts (.single (.storeEraseCompletion r)) h
  | settingsSaveCompletion r => exact eventCommand_parts (.single (.settingsSaveCompletion r)) h
  | powerOn => cases h; exact .single .powerOn
  | lineReset => cases h; exact .single .lineReset
  | restartTakesEffect => exact eventCommand_parts (restartTakesEffect_parts s) h
  | resetInputRelease => cases h; exact .single .resetInputRelease
  | suppliesSteady => cases h; exact .single .suppliesSteady

theorem step_parts {s t : State} (h : step s = .next t) : StepParts s t := by
  unfold step at h
  split at h
  · cases h; exact .refl
  · next rest _ => exact .head (.taken rest) (exec_parts h)

/-- A law that every part keeps is kept by every step. -/
theorem keptByStep_of_parts {law : State → Prop} (part : ∀ {s t}, StepPart s t → law s → law t) : keptByStep law := by
  have chain : ∀ {s t}, StepParts s t → law s → law t := by
    intro s t parts hs
    induction parts with
    | refl => exact hs
    | tail _ last ih => exact part last ih
  exact fun s t hs h => chain (step_parts h) hs

end Sys2Proof.Machine
end

section
/-! The law of the configuration (R23, R181): forms beside their neighbours, ACTIVE carriers in served groups alone, and the line level, for the
hub and for what its store has saved. -/
namespace Sys2Proof.Machine

/-- What the law reads of the hub. -/
structure Setup where
  ctb : Table Carrier 64
  form : GroupId → GroupForm
  lineLevel : Level
  snapshots : List Snapshot

/-- The forms of the groups. -/
def formsOf (lal : Table Group 8) (g : GroupId) : GroupForm := (configOf lal g).form

/-- The hub's own carriers, forms, line level and saved snapshots. -/
def State.setup (s : State) : Setup := ⟨s.ctb, formsOf s.lal, s.ict.lineLevel, s.ast.snapshots⟩

/-- A saved configuration is consistent. -/
def Snapshot.Ok (x : Snapshot) : Prop := (formsAgree fun g => (x.groups.get g).form) ∧ 1 ≤ x.lineLevel.val

/-- No ACTIVE carrier has an UNUSED group in its set (R23). -/
def Served (ctb : Table Carrier 64) (form : GroupId → GroupForm) : Prop :=
  ∀ (c : CarrierId) (g : GroupId), (ctb.get c).state = .active → ((ctb.get c).placements.get g).isSome → form g ≠ .unused

/-- The law, part by part. -/
structure Setup.Ok (x : Setup) : Prop where
  forms : formsAgree x.form
  line : 1 ≤ x.lineLevel.val
  saved : ∀ y ∈ x.snapshots, y.Ok
  served : Served x.ctb x.form

theorem State.raise_setup (s : State) (n : Notice) : (s.raise n).setup = s.setup := rfl

theorem State.withBku_setup (s : State) (b : Bku) : (s.withBku b).setup = s.setup := rfl

theorem configOk_iff (s : State) : s.configOk ↔ s.setup.Ok :=
  ⟨fun ⟨forms, line, saved, served⟩ => ⟨forms, line, saved, served⟩, fun ok => ⟨ok.forms, ok.line, ok.saved, ok.served⟩⟩

/-! ### Forms -/

/-- A form that R24 allows a group beside its neighbours keeps the forms consistent. -/
theorem formsAgree_update {s : State} {g : GroupId} {form : GroupForm} (agree : formsAgree (formsOf s.lal))
    (allowed : s.allowsForm g form) : formsAgree (Function.update (formsOf s.lal) g form) := by
  obtain ⟨ring, used⟩ := allowed
  intro h isRing
  obtain rfl | ne := eq_or_ne h g
  · rw [Function.update_self] at isRing
    obtain ⟨even, next⟩ := ring isRing
    have other : groupAfter h ≠ h := by
      rw [groupAfter, dif_pos (by omega)]
      exact fun e => by have := congrArg Fin.val e; simp at this
    exact ⟨even, (Function.update_of_ne other _ _).trans next⟩
  · rw [Function.update_of_ne ne] at isRing
    obtain ⟨even, next⟩ := agree h isRing
    refine ⟨even, ?_⟩
    obtain rfl | other := eq_or_ne (groupAfter h) g
    · have number : (groupAfter h).val = h.val + 1 := by rw [groupAfter, dif_pos (by omega)]
      rw [Function.update_self]
      by_contra isUsed
      refine used isUsed (by omega) ?_
      rw [portBefore_eq number.symm]
      exact isRing
    · rw [Function.update_of_ne other]; exact next

theorem formsAgree_unused : formsAgree fun _ => .unused := fun _ ring => nomatch ring

theorem formsOf_empty (config : GroupId → GroupConfig) : formsOf (.make fun g => .empty (config g)) = fun g => (config g).form := by
  funext g
  simp only [formsOf, configOf, Table.get_make, Group.empty]

/-! ### ACTIVE carriers in served groups -/

section Served
variable {ctb : Table Carrier 64} {form : GroupId → GroupForm}

theorem Served.of_none_active (idle : ∀ c, (ctb.get c).state ≠ .active) : Served ctb form := fun c _ active => absurd active (idle c)

/-- A record written: ACTIVE only where the carrier was ACTIVE, with the same set. -/
theorem Served.put (h : Served ctb form) (c : CarrierId) (r : Carrier) (same : r.state = .active →
    (ctb.get c).state = .active ∧ ∀ g, (r.placements.get g).isSome = ((ctb.get c).placements.get g).isSome) :
    Served (ctb.put c r) form := by
  intro d g active record
  obtain rfl | ne := eq_or_ne c d
  · rw [Table.get_put_self] at active record
    exact h c g (same active).1 ((same active).2 g ▸ record)
  · rw [Table.get_put_ne _ _ ne] at active record
    exact h d g active record

end Served

namespace Alloc
variable {a b : Alloc} {row : ProfileRow} {c : CarrierId}

/-- The allocator's tables agree with R23. -/
def Served (a : Alloc) : Prop := Machine.Served a.ctb (formsOf a.lal)

theorem KeepsRecords.formsOf (k : KeepsRecords a b) : formsOf b.lal = formsOf a.lal := funext fun g => congrArg (·.form) (k.config g)

theorem KeepsRecords.served (k : KeepsRecords a b) (h : a.Served) : b.Served := by
  intro c g active record
  rw [k.formsOf]
  rw [(k.record c).1] at active
  rw [k.isSome] at record
  exact h c g active record

theorem Served.withState (h : a.Served) {st : CarrierState}
    (set : st = .active → ∀ g, ((a.ctb.get c).placements.get g).isSome → Machine.formsOf a.lal g ≠ .unused) : (a.withState c st).Served := by
  intro d g active record
  rw [state_withState] at active
  rw [(withState_records a c st).1] at record
  split_ifs at active with own
  · subst own; exact set active g record
  · exact h d g active record

/-- The check of R12 on the groups of the set. -/
theorem served_of_pass (pass : a.activationRefusal c = none) (g : GroupId) (record : ((a.ctb.get c).placements.get g).isSome) :
    Machine.formsOf a.lal g ≠ .unused := by
  rw [activationRefusal_eq] at pass
  split_ifs at pass with _ _ forms _
  exact forms g record

theorem Served.activate (h : a.Served) (pass : a.activationRefusal c = none) : (a.activate row c).Served :=
  (activate_records a row c).served (h.withState fun _ => served_of_pass pass)

theorem Served.deactivate (h : a.Served) : (a.deactivate row c).Served :=
  deactivate_eq a row c ▸ ((exits_records a row c).served h).withState fun e => nomatch e

theorem formsOf_activate : Machine.formsOf (a.activate row c).lal = Machine.formsOf a.lal := (activate_records a row c).formsOf

theorem formsOf_deactivate : Machine.formsOf (a.deactivate row c).lal = Machine.formsOf a.lal := (exits_records a row c).formsOf

theorem incident_records (a : Alloc) (row : ProfileRow) : KeepsRecords a (a.incident row) :=
  foldl_keepsRecords (keeps_incidentGroup row) _ _

theorem activateAll_served (ids : List CarrierId) : ∀ (a : Alloc) (made refused : Nat), a.Served →
    (activateAll row ids (a, made, refused)).1.Served ∧
      Machine.formsOf (activateAll row ids (a, made, refused)).1.lal = Machine.formsOf a.lal := by
  induction ids with
  | nil => exact fun _ _ _ h => ⟨h, rfl⟩
  | cons c ids ih =>
    intro a made refused h
    unfold activateAll
    split
    · next pass =>
      obtain ⟨served, forms⟩ := ih _ (made + 1) refused (h.activate (row := row) pass)
      exact ⟨served, forms.trans formsOf_activate⟩
    · exact ih _ _ _ h

end Alloc

namespace Setup.Ok
variable {s t : State}

theorem of_eq (ok : s.setup.Ok) (same : t.setup = s.setup) : t.setup.Ok := same ▸ ok

/-- The law of a hub whose forms are known. -/
theorem of_forms {form : GroupId → GroupForm} (forms : formsOf s.lal = form) (agree : formsAgree form) (line : 1 ≤ s.ict.lineLevel.val)
    (saved : ∀ y ∈ s.ast.snapshots, y.Ok) (served : Served s.ctb form) : s.setup.Ok := by
  subst forms
  exact ⟨agree, line, saved, served⟩

/-- The lane allocator's work keeps the law where it keeps R23 and the forms. -/
theorem withAlloc (ok : s.setup.Ok) {a : Alloc} (served : a.Served) (forms : formsOf a.lal = formsOf s.lal) :
    (s.withAlloc a).setup.Ok :=
  of_forms forms ok.forms ok.line ok.saved (forms ▸ served)

theorem putCarrier (ok : s.setup.Ok) (c : CarrierId) (r : Carrier) (same : r.state = .active →
    (s.ctb.get c).state = .active ∧ ∀ g, (r.placements.get g).isSome = ((s.ctb.get c).placements.get g).isSome) :
    ({ s with ctb := s.ctb.put c r } : State).setup.Ok :=
  { ok with served := ok.served.put c r same }

theorem withSnapshots (ok : s.setup.Ok) {u : Store} (saved : ∀ y ∈ u.snapshots, y.Ok) : ({ s with ast := u } : State).setup.Ok :=
  { ok with saved := saved }

theorem withIncident (ok : s.setup.Ok) {i : Incident} (line : 1 ≤ i.lineLevel.val) : ({ s with ict := i } : State).setup.Ok :=
  { ok with line := line }

end Setup.Ok

/-! ### The carrier requests -/

theorem carset_ok (a : CarsetArgs) {s : State} (ok : s.setup.Ok) : (carset a s).state.setup.Ok := by
  unfold carset
  split
  · next c v _ _ =>
    dsimp only
    split
    · next active =>
      split
      · exact ok.putCarrier c _ fun _ => ⟨active, fun _ => rfl⟩
      · exact ok
    · exact ok.putCarrier c _ fun active => nomatch active
  · exact ok

theorem caron_ok (n : Nat) {s : State} (ok : s.setup.Ok) : (caron n s).state.setup.Ok := by
  unfold caron
  split
  · exact ok
  · split
    · exact ok
    · next pass =>
      have served : s.alloc.Served := ok.served
      exact ok.withAlloc (served.activate pass) Alloc.formsOf_activate

theorem caroff_ok (n : Nat) {s : State} (ok : s.setup.Ok) : (caroff n s).state.setup.Ok := by
  unfold caroff
  split
  · exact ok
  · next c _ =>
    split
    · exact ok
    · have served : s.alloc.Served := ok.served
      have released := ok.withAlloc (served.deactivate (row := s.ict.row) (c := c)) Alloc.formsOf_deactivate
      exact released

theorem carclr_ok (n : Nat) {s : State} (ok : s.setup.Ok) : (carclr n s).state.setup.Ok := by
  unfold carclr
  split
  · exact ok
  · next c _ =>
    split
    · exact ok
    · exact ok
    · exact ok.putCarrier c _ fun active => nomatch active

theorem trim_ok (n gn v : Nat) {s : State} (ok : s.setup.Ok) : (trim n gn v s).state.setup.Ok := by
  unfold trim
  split
  · next c g _ _ =>
    dsimp only
    split
    · exact ok
    · next q record =>
      split
      · exact ok
      · refine ok.putCarrier c _ fun active => ⟨active, fun h => ?_⟩
        obtain rfl | ne := eq_or_ne g h
        · rw [Table.get_put_self, record]; rfl
        · rw [Table.get_put_ne _ _ ne]
  · exact ok

/-! ### Groups and levels -/

/-- A tuned group, or one set up anew, with a form that its neighbours and its carriers allow (R24). -/
theorem tuned_ok {s : State} (ok : s.setup.Ok) {g : GroupId} {cfg : GroupConfig} (allowed : s.allowsForm g cfg.form)
    (idle : cfg.form ≠ formsOf s.lal g → ¬s.ActiveIn g) : (s.tuned g cfg).setup.Ok := by
  have forms : formsOf (s.tuned g cfg).lal = Function.update (formsOf s.lal) g cfg.form := by
    funext h
    rw [formsOf, configOf_tuned]
    obtain rfl | ne := eq_or_ne g h
    · rw [if_pos rfl, Function.update_self]
    · rw [if_neg ne, Function.update_of_ne ne.symm]; rfl
  refine .of_forms forms (formsAgree_update ok.forms allowed) ok.line ok.saved fun c h active record => ?_
  have before := ok.served c h active record
  obtain rfl | ne := eq_or_ne h g
  · rw [Function.update_self]
    by_cases same : cfg.form = formsOf s.lal h
    · rw [same]; exact before
    · exact absurd ⟨c, active, record⟩ (idle same)
  · rw [Function.update_of_ne ne]; exact before

theorem setUpAnew_setup (s : State) (g : GroupId) (cfg : GroupConfig) : (s.setUpAnew g cfg).setup = (s.tuned g cfg).setup := rfl

theorem grpset_ok (a : GrpsetArgs) {s : State} (ok : s.setup.Ok) : (grpset a s).state.setup.Ok := by
  by_cases unnamed : 8 ≤ a.group ∨ codeForm a.form = none
  · rw [grpset_of_unnamed unnamed]; exact ok
  · obtain ⟨near, form⟩ := not_or.1 unnamed
    obtain ⟨form, named⟩ := Option.ne_none_iff_exists'.1 form
    let g : GroupId := ⟨a.group, not_le.1 near⟩
    cases checks : grpsetRefusal s g a form with
    | some st => rw [grpset_of_refusal (g := g) rfl named checks]; exact ok
    | none =>
      obtain ⟨allowed, idle⟩ := allowed_of_pass checks
      have tuned : (s.tuned g (grpsetConfig a form)).setup.Ok := tuned_ok ok allowed fun change => idle (.inl change)
      rw [grpset_of_pass (g := g) rfl named checks, okWith]
      dsimp only
      split
      · rw [setUpAnew_setup]; exact tuned
      · exact tuned

theorem incidentEvent_ok (cause : IncidentCause) (mask : Nat) {s : State} (ok : s.setup.Ok) :
    (incidentEvent cause mask s).setup.Ok := by
  have served : s.alloc.Served := ok.served
  have records := s.alloc.incident_records s.ict.row
  rw [incidentEvent_eq]
  refine Setup.Ok.of_eq ?_ (State.withBku_setup _ _)
  exact Setup.Ok.withAlloc (s := s.raise _) ok (records.served served) records.formsOf

theorem changeLevels_ok (cause : IncidentCause) {i : Incident} {s : State} (line : i.lineLevel = s.ict.lineLevel)
    (ok : s.setup.Ok) : (changeLevels cause i s).setup.Ok := by
  have stored : ({ s with ict := i } : State).setup.Ok := ok.withIncident (line ▸ ok.line)
  unfold changeLevels
  dsimp only
  split
  · exact stored
  · exact incidentEvent_ok _ _ stored

theorem lineSample_ok (n : FrameNo) (line : Bool) {s : State} (ok : s.setup.Ok) : (lineSample n line s).setup.Ok := by
  refine changeLevels_ok _ ?_ ok
  unfold Incident.sample
  split <;> rfl

theorem incclr_ok {s : State} (ok : s.setup.Ok) : (incclr s).state.setup.Ok := by
  unfold incclr
  split
  · exact ok
  · exact changeLevels_ok _ rfl ok

/-- The line level is clamped to 1..3 (R187). -/
theorem clampLineLevel_pos (n : Nat) : 1 ≤ (clampLineLevel n).val := by
  unfold clampLineLevel levelOf
  split
  · decide
  · split
    · dsimp only; omega
    · decide

theorem profset_ok (a : ProfsetArgs) {s : State} (ok : s.setup.Ok) : (profset a s).state.setup.Ok := by
  unfold profset
  split
  · next row talk pre prot _ _ _ _ =>
    have stored : ∀ p, ({ s with ict := { s.ict with profile := p, lineLevel := clampLineLevel a.lineLevel } } : State).setup.Ok :=
      fun p => ok.withIncident (clampLineLevel_pos a.lineLevel)
    dsimp only
    split
    · exact incidentEvent_ok _ _ (stored _)
    · exact stored _
  · exact ok

/-! ### The store -/

theorem Store.commit_snapshots (t : Store) (l : PageLoad) : (t.commit l).snapshots = t.snapshots := by
  unfold Store.commit
  dsimp only
  split <;> rfl

theorem Store.advance_snapshots (t : Store) : t.advance.snapshots = t.snapshots := by
  unfold Store.advance
  split <;> rfl

theorem Store.programEnd_snapshots (t : Store) (l : PageLoad) (r : StoreResult) : (t.programEnd l r).snapshots = t.snapshots := by
  cases r <;> rfl

theorem Store.eraseEnd_snapshots (t : Store) (b : BlockId) (r : StoreResult) : (t.eraseEnd b r).snapshots = t.snapshots := by
  cases r <;> rfl

/-- A reset drops a save under way and keeps the settings area (R180). -/
theorem Store.afterReset_snapshots (t : Store) : t.afterReset.snapshots = t.settings.toList := by
  have cut : t.cutShort.settings = t.settings := by
    unfold Store.cutShort
    split <;> rfl
  have dropped : t.cutShort.dropHeld.settings = t.cutShort.settings := by
    unfold Store.dropHeld
    split <;> rfl
  simp only [Store.snapshots, Store.afterReset, dropped, cut, Option.toList_none, List.append_nil]

theorem setup_of_snapshots {s : State} {u : Store} (same : u.snapshots = s.ast.snapshots) :
    ({ s with ast := u } : State).setup = s.setup := congrArg (Setup.mk _ _ _) same

theorem storeProgramCompletion_setup (r : StoreResult) (s : State) : (storeProgramCompletion r s).setup = s.setup := by
  unfold storeProgramCompletion
  split
  · next l _ =>
    have same := (Store.advance_snapshots ((s.ast.programEnd l r).record (.program l.page r))).trans (s.ast.programEnd_snapshots l r)
    exact (State.raise_setup _ _).trans (setup_of_snapshots same)
  · rfl

theorem storeEraseCompletion_setup (r : StoreResult) (s : State) : (storeEraseCompletion r s).setup = s.setup := by
  unfold storeEraseCompletion
  split
  · next b _ =>
    have same := (Store.advance_snapshots ((s.ast.eraseEnd b r).record (.erase b r))).trans (s.ast.eraseEnd_snapshots b r)
    exact (State.raise_setup _ _).trans (setup_of_snapshots same)
  · rfl

theorem pgopen_setup (n : Nat) (s : State) : (pgopen n s).state.setup = s.setup := by
  unfold pgopen
  split <;> rfl

theorem pgdata_setup (off : Nat) (bs : List Byte) (s : State) : (pgdata off bs s).state.setup = s.setup := by
  unfold pgdata
  split
  · rfl
  · split
    · rfl
    · split <;> rfl

theorem pgcommit_setup (s : State) : (pgcommit s).state.setup = s.setup := by
  unfold pgcommit
  split
  · rfl
  · next l _ =>
    split
    · rfl
    · exact setup_of_snapshots (Store.commit_snapshots s.ast l)

theorem blkerase_setup (n : Nat) (s : State) : (blkerase n s).state.setup = s.setup := by
  unfold blkerase
  split
  · rfl
  · split <;> rfl

theorem blkguard_setup (n bar : Nat) (s : State) : (blkguard n bar s).state.setup = s.setup := by
  unfold blkguard
  split
  · rfl
  · split
    · rfl
    · split <;> rfl
  · rfl

theorem msgdef_setup (a : MsgdefArgs) (s : State) : (msgdef a s).state.setup = s.setup := by
  unfold msgdef
  split <;> rfl

theorem msgclr_setup (n : Nat) (s : State) : (msgclr n s).state.setup = s.setup := by
  unfold msgclr
  split
  · rfl
  · split <;> rfl

/-- A snapshot taken is as consistent as the hub (R177). -/
theorem save_ok {s : State} (ok : s.setup.Ok) : (save s).state.setup.Ok := by
  unfold save
  split
  · exact ok
  · refine ok.withSnapshots fun y hy => ?_
    obtain rfl := List.mem_singleton.1 hy
    refine ⟨?_, ok.line⟩
    simp only [State.snapshot, Table.get_make]
    exact ok.forms

/-- The area takes the snapshot that was saved, or none (R178). -/
theorem settingsSaveCompletion_ok (r : StoreResult) {s : State} (ok : s.setup.Ok) : (settingsSaveCompletion r s).setup.Ok := by
  unfold settingsSaveCompletion
  split
  · exact ok
  · next x saving =>
    have saved : x.Ok := ok.saved x (List.mem_append_right _ (by rw [saving]; exact List.mem_singleton_self x))
    refine Setup.Ok.withSnapshots (s := s) ok fun y hy => ?_
    cases r with
    | pass => obtain rfl := List.mem_singleton.1 hy; exact saved
    | fail => cases hy

/-! ### Requests and events that the law does not see -/

theorem sprst_setup (n : Nat) (s : State) : (sprst n s).state.setup = s.setup := by
  unfold sprst
  split
  · rfl
  · split <;> rfl

theorem annc_setup (a : AnncArgs) (s : State) : (annc a s).state.setup = s.setup := by
  unfold annc
  split
  · rfl
  · repeat (split; · rfl)
    rfl

theorem ancan_setup (n : Nat) (s : State) : (ancan n s).state.setup = s.setup := by
  unfold ancan
  split
  · rfl
  · split <;> rfl

theorem trksel_setup (n : Nat) (s : State) : (trksel n s).state.setup = s.setup := by
  unfold trksel
  split
  · rfl
  · dsimp only
    split
    · rfl
    · split <;> rfl

theorem restart_setup (n : Nat) (s : State) : (restart n s).state.setup = s.setup := by
  unfold restart
  split
  · rfl
  · split <;> rfl

theorem holdoverExpiry_setup (s : State) : (holdoverExpiry s).setup = s.setup := by
  unfold holdoverExpiry
  split <;> rfl

theorem overBudget_setup (g : GroupId) (s : State) : (overBudget g s).setup = s.setup := by
  unfold overBudget
  dsimp only
  split <;> rfl

theorem missLimitReached_setup (g : GroupId) (k : Pos) (sd : Side) (s : State) : (missLimitReached g k sd s).setup = s.setup := by
  unfold missLimitReached
  dsimp only
  split <;> rfl

theorem hangExpiry_setup (g : GroupId) (l : LaneId) (k : Pos) (s : State) : (hangExpiry g l k s).setup = s.setup := by
  rw [hangExpiry_eq]
  split <;> rfl

theorem fadeEnd_setup (id : PlayerId) (s : State) : (fadeEnd id s).setup = s.setup := by
  unfold fadeEnd
  dsimp only
  split
  · split <;> rfl
  · split <;> rfl
  · rfl

theorem gapEnd_setup (id : PlayerId) (s : State) : (gapEnd id s).setup = s.setup := by
  unfold gapEnd
  dsimp only
  split <;> rfl

theorem liveSpeechLoss_setup (id : PlayerId) (s : State) : (liveSpeechLoss id s).setup = s.setup := by
  unfold liveSpeechLoss
  dsimp only
  split <;> rfl

theorem spanUplinkFrameArrival_setup (p : SpanId) (bs : List Byte) (s : State) : (spanUplinkFrameArrival p bs s).setup = s.setup := by
  unfold spanUplinkFrameArrival
  split <;> rfl

theorem laneGuardExpiry_setup (g : GroupId) (l : LaneId) (s : State) : (laneGuardExpiry g l s).setup = s.setup := by
  unfold laneGuardExpiry
  split
  · have forms : formsOf (s.lal.edit g fun x => { x with lanes := x.lanes.edit l Lane.expire }) = formsOf s.lal := by
      funext h
      obtain rfl | ne := eq_or_ne g h
      · simp [formsOf, configOf]
      · simp [formsOf, configOf, ne]
    exact congrArg (Setup.mk _ · _ _) forms
  · rfl

/-! ### Any request -/

theorem requestAct_ok (v : State → State) (r : Request) {s : State} (ok : s.setup.Ok) : (requestAct v r s).state.setup.Ok := by
  cases r with
  | rdrec sel part => exact (rdrecOf_state (v s) sel part s).symm ▸ ok
  | carset a => exact carset_ok a ok
  | caron n => exact caron_ok n ok
  | caroff n => exact caroff_ok n ok
  | carclr n => exact carclr_ok n ok
  | trim n g x => exact trim_ok n g x ok
  | grpset a => exact grpset_ok a ok
  | sprst n => exact ok.of_eq (sprst_setup n s)
  | incset n => exact changeLevels_ok _ rfl ok
  | incclr => exact incclr_ok ok
  | profset a => exact profset_ok a ok
  | annc a => exact ok.of_eq (annc_setup a s)
  | ancan n => exact ok.of_eq (ancan_setup n s)
  | voxset a => exact ok
  | pgopen n => exact ok.of_eq (pgopen_setup n s)
  | pgdata off bs => exact ok.of_eq (pgdata_setup off bs s)
  | pgcommit => exact ok.of_eq (pgcommit_setup s)
  | blkerase n => exact ok.of_eq (blkerase_setup n s)
  | blkguard n bar => exact ok.of_eq (blkguard_setup n bar s)
  | msgdef a => exact ok.of_eq (msgdef_setup a s)
  | msgclr n => exact ok.of_eq (msgclr_setup n s)
  | trksel n => exact ok.of_eq (trksel_setup n s)
  | timset limit x => exact ok
  | save => exact save_ok ok
  | restart n => exact ok.of_eq (restart_setup n s)
  | causeclr => exact ok

/-! ### The works of a slot -/

theorem works_setup (o : WorkOrder) (i : MixInput) (s : State) : (works o i s).setup = s.setup := by
  have mixer : ∀ t, (mixerWork i t).setup = t.setup := fun _ => rfl
  have players : ∀ t, (playerWork i t).setup = t.setup := fun _ => rfl
  have spans : ∀ t, (spanWork i t).setup = t.setup := by
    intro t
    unfold spanWork closeSlot
    dsimp only
    split <;> rfl
  cases o <;> simp only [works, mixer, players, spans]

theorem slotWorked_setup (n : FrameNo) (ord : SlotOrder) (s : State) : (slotWorked n ord s).setup = s.setup := by
  have forms : formsOf (markLanes s.ctb s.bku (guardStep s.lal)) = formsOf s.lal := by
    funext g
    simp only [formsOf, configOf, markLanes, guardStep, Table.get_make]
  have opened : (openSlot n ord s).1.setup = s.setup := congrArg (Setup.mk _ · _ _) forms
  exact (works_setup ord.works _ _).trans opened

/-! ### Resets and start-up -/

theorem resetBlocks_ok (keep : Bool) (causes : CauseRecord) {s : State} (ok : s.setup.Ok) : (resetBlocks keep causes s).setup.Ok := by
  have saved : ∀ y ∈ s.ast.afterReset.snapshots, y.Ok := by
    rw [Store.afterReset_snapshots]
    exact fun y hy => ok.saved y (List.mem_append_left _ hy)
  have forms : formsOf (resetBlocks keep causes s).lal = _ := formsOf_empty _
  cases keep with
  | false =>
    refine .of_forms forms formsAgree_unused (by simp [resetBlocks, Incident.fresh]) saved (.of_none_active fun c => ?_)
    exact (Table.get_fill Carrier.default c).symm ▸ unplaced_default.1
  | true =>
    refine .of_forms forms ok.forms ok.line saved (.of_none_active fun c => ?_)
    exact (Table.get_make (fun c => (s.ctb.get c).kept) c).symm ▸ (unplaced_kept _).1

theorem startUp_ok (outcome : SettingsOutcome) (ids : List CarrierId) {s : State} (ok : s.setup.Ok) :
    (startUp outcome ids s).setup.Ok := by
  have before : s.alloc.Served := ok.served
  obtain ⟨served, forms⟩ := Alloc.activateAll_served (row := s.ict.row) ids s.alloc 0 0 before
  exact ok.withAlloc served forms

/-- A loaded snapshot brings its own configuration, and no carrier ACTIVE (R20, R178). -/
theorem load_ok {s : State} {x : Snapshot} (ok : s.setup.Ok) (loaded : x.Ok) : (s.load x).setup.Ok := by
  have forms : formsOf (s.load x).lal = fun g => (x.groups.get g).form := formsOf_empty _
  refine .of_forms forms loaded.1 loaded.2 ok.saved (.of_none_active fun c => ?_)
  exact (Table.get_make (fun c => (x.carriers.get c).loaded) c).symm ▸ (unplaced_loaded _).1

theorem startUpLoading_ok {s : State} (ok : s.setup.Ok) : (startUpLoading s).setup.Ok := by
  unfold startUpLoading
  split
  · exact startUp_ok _ _ ok
  · next x settings =>
    have saved : x.Ok := ok.saved x (List.mem_append_left _ (by rw [settings]; exact List.mem_singleton_self x))
    exact startUp_ok _ _ (load_ok ok saved)

theorem restartNow_ok (f : RestartForm) {s : State} (ok : s.setup.Ok) : (restartNow f s).setup.Ok := by
  cases f with
  | keep => exact startUp_ok _ _ (resetBlocks_ok true _ ok)
  | reload => exact startUpLoading_ok (resetBlocks_ok false _ ok)

theorem lineReset_ok {s : State} (ok : s.setup.Ok) : (lineReset s).setup.Ok := by
  unfold lineReset
  split
  · exact ok
  · exact resetBlocks_ok false s.mga.causes.lineReset ok

theorem leaveReset_ok {s : State} (ok : s.setup.Ok) : (leaveReset s).setup.Ok := by
  unfold leaveReset
  split
  · exact ok
  · exact startUpLoading_ok ok

theorem resetInputRelease_ok {s : State} (ok : s.setup.Ok) : (resetInputRelease s).setup.Ok := by
  unfold resetInputRelease
  split
  · exact leaveReset_ok (s := { s with pins := { s.pins with resetInput := false } }) ok
  · exact ok

theorem suppliesSteady_ok {s : State} (ok : s.setup.Ok) : (suppliesSteady s).setup.Ok := by
  unfold suppliesSteady
  split
  · exact leaveReset_ok (s := { s with pins := { s.pins with powerHold := false } }) ok
  · exact ok

/-! ### The step -/

theorem StepPart.setup_ok {s t : State} (part : StepPart s t) (ok : s.setup.Ok) : t.setup.Ok := by
  cases part with
  | taken rest => exact ok
  | requested v r => exact requestAct_ok v r ok
  | responded p x => exact ok
  | refreshed => exact ok
  | worked n ord => exact ok.of_eq (slotWorked_setup n ord s)
  | sampled n line => exact lineSample_ok n line ok
  | completed n => exact ok
  | restarted f => exact restartNow_ok f ok
  | holdoverExpiry => exact ok.of_eq (holdoverExpiry_setup s)
  | laneGuardExpiry g l => exact ok.of_eq (laneGuardExpiry_setup g l s)
  | overBudget g => exact ok.of_eq (overBudget_setup g s)
  | missLimitReached g k sd => exact ok.of_eq (missLimitReached_setup g k sd s)
  | hangExpiry g l k => exact ok.of_eq (hangExpiry_setup g l k s)
  | fadeEnd id => exact ok.of_eq (fadeEnd_setup id s)
  | gapEnd id => exact ok.of_eq (gapEnd_setup id s)
  | liveSpeechLoss id => exact ok.of_eq (liveSpeechLoss_setup id s)
  | trunkFrameArrival p bs => exact ok
  | spanUplinkFrameArrival p bs => exact ok.of_eq (spanUplinkFrameArrival_setup p bs s)
  | storeProgramCompletion r => exact ok.of_eq (storeProgramCompletion_setup r s)
  | storeEraseCompletion r => exact ok.of_eq (storeEraseCompletion_setup r s)
  | settingsSaveCompletion r => exact settingsSaveCompletion_ok r ok
  | powerOn => exact resetBlocks_ok false .poweredOn ok
  | lineReset => exact lineReset_ok ok
  | resetInputRelease => exact resetInputRelease_ok ok
  | suppliesSteady => exact suppliesSteady_ok ok

end Sys2Proof.Machine

namespace Sys2Proof.Proofs
open Sys2Proof Sys2Proof.Machine

/-- Settles O54: the law reads carriers, forms, line level and snapshots, and every part of a step keeps it; GRPSET past the checks of R24, an
activation past those of R12, and a load because what it loads was saved consistent. -/
theorem stepKeepsConfigurationConsistent : Obligations.StepKeepsConfigurationConsistent := by
  have kept := keptByStep_of_parts (law := fun s => s.setup.Ok) StepPart.setup_ok
  exact fun s t hs h => (configOk_iff t).2 (kept s t ((configOk_iff s).1 hs) h)

end Sys2Proof.Proofs
end

section
/-! The group limiter (R60 to R66): one law per function of its update, the powers it is fed with, the derating, and OVER_BUDGET. -/
namespace Sys2Proof.Machine

/-! ### Sums over a table -/

/-- The rows of a table in the order of their numbers. -/
theorem Table.toList_rows {α : Type} {n : Nat} (t : Table α n) : t.rows.toList = (List.finRange n).map t.get := by
  have rows : t.rows = Vector.ofFn t.get := by
    ext k hk
    rw [Vector.getElem_ofFn]
    rfl
  rw [rows, Vector.toList_ofFn, List.ofFn_eq_map]

theorem sum_map_filter {α : Type} (p : α → Bool) (f : α → Nat) (xs : List α) :
    ((xs.filter p).map f).sum = (xs.map fun x => if p x then f x else 0).sum := by
  induction xs with
  | nil => rfl
  | cons x xs ih => by_cases h : p x <;> simp [h, ih]

/-! ### Powers (R4, R60) -/

theorem Sample.energy_cast (x : Sample) : (Sample.energy x : Int) = x.i.toInt ^ 2 + x.q.toInt ^ 2 := by
  simp only [Sample.energy, Nat.cast_add, Nat.cast_pow, Int.natCast_natAbs, sq_abs]

theorem power_cast (b : LaneBlock) :
    (power b : Int) = ((List.finRange 24).map fun k => (b.get k).i.toInt ^ 2 + (b.get k).q.toInt ^ 2).sum / 24 := by
  have energies : ((sumSamples b Sample.energy : Nat) : Int) =
      ((List.finRange 24).map fun k => (b.get k).i.toInt ^ 2 + (b.get k).q.toInt ^ 2).sum := by
    simp only [sumSamples, Table.toList_rows, Nat.cast_list_sum, List.map_map, Function.comp_def, Sample.energy_cast]
  rw [power, Int.natCast_ediv, energies, Nat.cast_ofNat]

theorem groupPower_eq (m : Table MixedLane 32) :
    groupPower m = min ((List.finRange 32).map fun l => power (m.get l).block).sum (2 ^ 36 - 1) := by
  simp only [groupPower, holdPower, maxPower, Table.toList_rows, List.map_map, Function.comp_def]

theorem protectedPower_eq (m : Table MixedLane 32) :
    protectedPower m =
      min ((List.finRange 32).map fun l => if (m.get l).isProtected then power (m.get l).block else 0).sum (2 ^ 36 - 1) := by
  simp only [protectedPower, holdPower, maxPower, sum_map_filter, Table.toList_rows, List.map_map, Function.comp_def]

theorem groupPower_le_max (m : Table MixedLane 32) : groupPower m ≤ 2 ^ 36 - 1 := min_le_right _ _

theorem protectedPower_le_groupPower (m : Table MixedLane 32) : protectedPower m ≤ groupPower m := by
  rw [protectedPower_eq, groupPower_eq]
  refine min_le_min_right _ (List.sum_le_sum fun l _ => ?_)
  split
  · exact le_rfl
  · exact Nat.zero_le _

/-! ### Envelope and derating (R61, R62) -/

theorem envelopeAfter_cast (e p : Nat) : (envelopeAfter e p : Int) = e + Int.tdiv ((p : Int) - e) 16 := by
  unfold envelopeAfter
  split
  · next rising =>
    have distance : (p : Int) - e = ((p - e : Nat) : Int) := by omega
    rw [distance, Int.tdiv_eq_ediv_of_nonneg (Int.natCast_nonneg _)]
    omega
  · next falling =>
    have distance : (p : Int) - e = -((e - p : Nat) : Int) := by omega
    rw [distance, Int.neg_tdiv, Int.tdiv_eq_ediv_of_nonneg (Int.natCast_nonneg _)]
    omega

theorem foldl_max_le_iff (xs : List Nat) : ∀ {a b : Nat}, xs.foldl max a ≤ b ↔ a ≤ b ∧ ∀ x ∈ xs, x ≤ b := by
  induction xs with
  | nil => simp
  | cons x xs ih =>
    intro a b
    rw [List.foldl_cons, ih, max_le_iff, List.forall_mem_cons, and_assoc]

theorem foldl_max_mem (xs : List Nat) : ∀ a : Nat, xs.foldl max a = a ∨ xs.foldl max a ∈ xs := by
  induction xs with
  | nil => exact fun _ => .inl rfl
  | cons x xs ih =>
    intro a
    rw [List.foldl_cons]
    obtain start | entry := ih (max a x)
    · rw [List.mem_cons, start]
      obtain larger | larger := max_choice a x
      · exact .inl larger
      · exact .inr (.inl larger)
    · exact .inr (List.mem_cons_of_mem x entry)

/-- A remote that R62 counts. -/
theorem Remote.derates_of_counts {r : Remote} {h : BitVec 2} (served : r.inService = true) (on : r.radiator ≠ some .paOff)
    (code : r.headroom = some h) : r.derates = h.toNat := by
  simp [Remote.derates, served, on, code]

/-- A remote that counts for something. -/
theorem Remote.derates_cases (r : Remote) :
    r.derates = 0 ∨ ∃ h : BitVec 2, r.inService = true ∧ r.radiator ≠ some .paOff ∧ r.headroom = some h ∧ r.derates = h.toNat := by
  unfold Remote.derates
  split
  · next counts =>
    cases code : r.headroom with
    | none => exact .inl rfl
    | some h => exact .inr ⟨h, counts.1, counts.2, rfl, rfl⟩
  · exact .inl rfl

theorem derating_eq (t : Table Remote 6) : derating t = ((List.finRange 6).map fun k => (t.get k).derates).foldl max 0 := by
  simp only [derating, Table.toList_rows, List.map_map, Function.comp_def]

theorem derates_le_derating (t : Table Remote 6) (k : Pos) : (t.get k).derates ≤ derating t := by
  rw [derating_eq]
  exact ((foldl_max_le_iff _).1 le_rfl).2 _ (List.mem_map_of_mem (List.mem_finRange k))

theorem derating_cases (t : Table Remote 6) : derating t = 0 ∨ ∃ k : Pos, derating t = (t.get k).derates := by
  rw [derating_eq]
  obtain none | entry := foldl_max_mem ((List.finRange 6).map fun k => (t.get k).derates) 0
  · exact .inl none
  · obtain ⟨k, -, value⟩ := List.mem_map.1 entry
    exact .inr ⟨k, value.symm⟩

/-! ### The limiter factor (R63) -/

section Factor
variable {floor factor e c : Nat}

theorem factorAfter_of_above (above : c < e) : factorAfter floor factor e c = max floor (factor - (factor + 31) / 32) := if_pos above

theorem factorAfter_of_below (below : e < c - c / 8) : factorAfter floor factor e c = min 4096 (factor + factor / 64 + 1) := by
  rw [factorAfter, if_neg (by omega), if_pos below]

theorem factorAfter_of_between (low : c - c / 8 ≤ e) (high : e ≤ c) : factorAfter floor factor e c = factor := by
  rw [factorAfter, if_neg (by omega), if_neg (by omega)]

theorem factorAfter_bounds (low : floor ≤ factor) (high : factor ≤ 4096) :
    floor ≤ factorAfter floor factor e c ∧ factorAfter floor factor e c ≤ 4096 := by
  unfold factorAfter
  split
  · omega
  · split <;> omega

end Factor

/-! ### The episode (R65) -/

theorem episodeAfter_over (run : Nat) :
    episodeAfter .over run true true = if 63 ≤ run then (.reported, 64) else (.over, run + 1) := by
  simp only [episodeAfter, Nat.reduceLeDiff]

theorem episodeAfter_unpinned (ep : Episode) (run : Nat) :
    episodeAfter ep run true false = (if ep = .reported then .reported else .over, 0) := by cases ep <;> rfl

section Update
variable (x : Limiter) (n : FrameNo) (g : GroupId) (cfg : GroupConfig) (m : Table MixedLane 32) (d : Nat)

/-- Episode and run of an update are what the table of R65 says of the envelope and the factor that it leaves. -/
theorem Limiter.update_episode {above pinned : Bool} {ep : Episode} {run : Nat}
    (side : decide (effectiveCeiling cfg.ceiling d < (x.update n g cfg m d).1.envelope) = above)
    (floor : decide ((x.update n g cfg m d).1.factor = cfg.floor) = pinned)
    (table : episodeAfter x.episode x.run above pinned = (ep, run)) :
    (x.update n g cfg m d).1.episode = ep ∧ (x.update n g cfg m d).1.run = run := by
  subst side floor
  exact Prod.mk.inj table

theorem Limiter.update_notices :
    let y := (x.update n g cfg m d).1
    let c := effectiveCeiling cfg.ceiling d
    (x.update n g cfg m d).2 =
      (if y.episode = .reported ∧ x.episode ≠ .reported then [.overBudget g y.envelope c (protectedPower m)] else []) ++
      (if y.protectedOver = true ∧ x.protectedOver = false then [.protectedOver g (protectedPower m) c] else []) := by
  simp only [Limiter.update, Bool.not_eq_true']

end Update

/-! ### OVER_BUDGET (R65; entry 1) -/

theorem overBudget_eq (g : GroupId) (s : State) :
    overBudget g s =
      let x := s.dmx.get g
      let cfg := configOf s.lal g
      let c := effectiveCeiling cfg.ceiling (derating (s.sif.remotes.get g))
      if cfg.form ≠ .unused ∧ x.episode = .over ∧ 63 ≤ x.run ∧ c < x.envelope ∧ x.factor = cfg.floor then
        { s with
          dmx := s.dmx.put g { x with episode := .reported, run := 64 }
          mga := s.mga.raise (.overBudget g x.envelope c ((x.last.map (·.protPower)).getD 0)) }
      else s := by
  unfold overBudget
  dsimp only
  cases (s.dmx.get g).last <;> rfl

end Sys2Proof.Machine

namespace Sys2Proof.Proofs
open Sys2Proof Sys2Proof.Machine

/-- Settles O17: outside a reset the row is its own rule. -/
theorem overBudgetReportsOnce : Obligations.OverBudgetReportsOnce := by
  intro s g awake
  exact (eventCommand_awake awake _).trans (congrArg _ (overBudget_eq g s))

/-- Settles O18: the laws of envelope, factor, episode and flag, with C the effective ceiling; then those of powers and derating. -/
theorem limiterUpdateFollowsItsRules : Obligations.LimiterUpdateFollowsItsRules := by
  refine ⟨fun x n g cfg m d low high _ _ => ?_, power_cast, fun m => ⟨groupPower_eq m, protectedPower_eq m⟩, fun t => ⟨?_, ?_⟩⟩
  · obtain ⟨floor_le, le_unity⟩ := factorAfter_bounds (e := (x.update n g cfg m d).1.envelope)
      (c := effectiveCeiling cfg.ceiling d) low high
    refine ⟨envelopeAfter_cast _ _, factorAfter_of_above, factorAfter_of_between, factorAfter_of_below, floor_le, le_unity,
      decide_eq_true_iff, fun calm => ?_, fun above pinned => ?_, fun above free => ?_, x.update_notices n g cfg m d, rfl,
      protectedPower_le_groupPower m, groupPower_le_max m⟩
    · exact x.update_episode n g cfg m d (decide_eq_false calm.not_gt) rfl rfl
    · have moves {ep run} := x.update_episode n g cfg m d (ep := ep) (run := run) (decide_eq_true above) (decide_eq_true pinned)
      refine ⟨fun quiet => moves ?_, fun isOver short => moves ?_, fun isOver full => moves ?_, fun reported => moves ?_⟩
      · rw [quiet, episodeAfter]
      · rw [isOver, episodeAfter_over, if_neg short.not_ge]
      · rw [isOver, episodeAfter_over, if_pos full]
      · rw [reported, episodeAfter]
    · have moves {ep run} := x.update_episode n g cfg m d (ep := ep) (run := run) (decide_eq_true above) (decide_eq_false free)
      refine ⟨fun other => moves ?_, fun reported => moves ?_⟩
      · rw [episodeAfter_unpinned, if_neg other]
      · rw [episodeAfter_unpinned, if_pos reported]
  · intro k h served on code
    exact Remote.derates_of_counts served on code ▸ derates_le_derating t k
  · obtain none | ⟨k, value⟩ := derating_cases t
    · exact .inl none
    · obtain none | ⟨h, served, on, code, same⟩ := (t.get k).derates_cases
      · exact .inl (value.trans none)
      · exact .inr ⟨k, h, served, on, code, value.trans same⟩

end Sys2Proof.Proofs
end

section
/-! The five stages of a lane block (R49 to R58): what each stage answers, and that the limiter has no part in a protected lane. -/
namespace Sys2Proof.Machine
open Sys2Proof.Proofs

/-! ### Gains and saturation (R1, R2, R54, R56) -/

theorem nearest_nonneg {v : Int} (hv : 0 ≤ v) (d : Nat) : 0 ≤ nearest v d := by
  rw [nearest_of_nonneg hv]
  positivity

/-- A gain code applied to a gain code is a gain code: nothing is lost as it is held as a natural number. -/
theorem applyGain_toNat (v g : Nat) : (((applyGain v g).toNat : Nat) : Int) = nearest ((v : Int) * (g : Int)) 4096 :=
  Int.toNat_of_nonneg (nearest_nonneg (by positivity) 4096)

theorem laneGain_cast (base trim : Nat) : (laneGain base trim : Int) = min 65535 (nearest ((base : Int) * (trim : Int)) 4096) := by
  rw [laneGain, Nat.cast_min, applyGain_toNat, Nat.cast_ofNat]

theorem effectiveGain_cast (isProtected : Bool) (g factor : Nat) :
    (effectiveGain isProtected g factor : Int) = if isProtected then (g : Int) else nearest ((g : Int) * (factor : Int)) 4096 := by
  cases isProtected with
  | false => exact applyGain_toNat g factor
  | true => rfl

theorem toInt_ofInt_saturate (v : Int) : (BitVec.ofInt 16 (saturate v)).toInt = saturate v := by
  have low : -32768 ≤ saturate v := le_max_left _ _
  have high : saturate v ≤ 32767 := max_le (by decide) (min_le_right _ _)
  exact BitVec.toInt_ofInt_eq_self (by decide) low (by omega)

theorem clips_iff (v : Int) : clips v = true ↔ v < -32768 ∨ 32767 < v := by
  rw [clips, bne_iff_ne, saturate]
  omega

theorem saturateBlock_get (f : Fin 24 → Int × Int) (k : Fin 24) :
    ((saturateBlock f).1.get k).i.toInt = saturate (f k).1 ∧ ((saturateBlock f).1.get k).q.toInt = saturate (f k).2 := by
  simp only [saturateBlock, Table.get_make, Sample.ofInts, toInt_ofInt_saturate, and_self]

theorem saturateBlock_count (f : Fin 24 → Int × Int) :
    (saturateBlock f).2 = ((List.finRange 24).map fun k =>
      (if (f k).1 < -32768 ∨ 32767 < (f k).1 then 1 else 0) + (if (f k).2 < -32768 ∨ 32767 < (f k).2 then 1 else 0)).sum := by
  simp only [saturateBlock, clips_iff]

theorem power_zeroBlock : power zeroBlock = 0 := by
  have silent : Sample.energy ⟨0, 0⟩ = 0 := rfl
  simp only [power, sumSamples, Table.toList_rows, zeroBlock, List.map_map, Function.comp_def, Table.get_fill, silent,
    List.map_const', List.sum_replicate, smul_zero, Nat.zero_div]

/-! ### The lanes of a group (R49, R55) -/

namespace MixInput
variable {i : MixInput} {g : GroupId} {l : LaneId} {c : CarrierId}

/-- The gain of a LIVE lane once the limiter has had its say (R54 to R56). -/
def gain (i : MixInput) (g : GroupId) (x : Lane) (c : CarrierId) : Nat :=
  effectiveGain (i.protects x c) (laneGain (i.baseGain c) (i.trim c g)) (i.pre.dmx.get g).factor

/-- The components of sample `k` of a LIVE lane before they are saturated (R57). -/
def components (i : MixInput) (g : GroupId) (x : Lane) (c : CarrierId) (k : Fin 24) : Int × Int :=
  (applyGain (faded (i.source c) (x.player.bind i.play) k).1 (i.gain g x c),
    applyGain (faded (i.source c) (x.player.bind i.play) k).2 (i.gain g x c))

theorem liveLane_eq (i : MixInput) (g : GroupId) (x : Lane) (c : CarrierId) :
    i.liveLane g x c = ⟨(saturateBlock (i.components g x c)).1, (saturateBlock (i.components g x c)).2, some c, i.protects x c⟩ := rfl

theorem lane_of_not_live (silent : ((i.lanes.get g).lanes.get l).state ≠ .live) : i.lane g l = .silent := by
  unfold MixInput.lane
  dsimp only
  split
  · next live _ => exact absurd live silent
  · rfl

theorem lane_of_live (live : ((i.lanes.get g).lanes.get l).state = .live) (owner : ((i.lanes.get g).lanes.get l).owner = some c) :
    i.lane g l = i.liveLane g ((i.lanes.get g).lanes.get l) c := by
  simp only [MixInput.lane, live, owner]

theorem protects_iff (i : MixInput) (x : Lane) (c : CarrierId) :
    i.protects x c = true ↔
      (i.pre.ctb.get c).fields.kind = .rescue ∨ (x.player.isSome ∧ i.pre.ict.row.protectBreakIn = true) := by
  simp only [protects, Bool.or_eq_true, decide_eq_true_eq, Bool.and_eq_true]

theorem gain_of_protected {x : Lane} (prot : i.protects x c = true) : i.gain g x c = laneGain (i.baseGain c) (i.trim c g) := by
  rw [gain, prot]; rfl

/-- The same inputs with other limiter states. -/
def withLimiters (i : MixInput) (limiters : Table Limiter 8) : MixInput := { i with pre := { i.pre with dmx := limiters } }

/-- The limiter has no part in a protected lane: the other stages do not read it. -/
theorem liveLane_withLimiters (limiters : Table Limiter 8) {x : Lane} (prot : i.protects x c = true) :
    (i.withLimiters limiters).liveLane g x c = i.liveLane g x c := by
  have gains : (i.withLimiters limiters).gain g x c = i.gain g x c :=
    (gain_of_protected (i := i.withLimiters limiters) prot).trans (gain_of_protected prot).symm
  have same : (i.withLimiters limiters).components g x c = i.components g x c := by
    unfold components
    rw [gains]
    rfl
  rw [liveLane_eq, liveLane_eq, same]
  rfl

theorem lane_withLimiters (limiters : Table Limiter 8) (owner : ((i.lanes.get g).lanes.get l).owner = some c)
    (prot : i.protects ((i.lanes.get g).lanes.get l) c = true) : (i.withLimiters limiters).lane g l = i.lane g l := by
  by_cases live : ((i.lanes.get g).lanes.get l).state = .live
  · rw [lane_of_live live owner, lane_of_live (i := i.withLimiters limiters) live owner]
    exact liveLane_withLimiters limiters prot
  · rw [lane_of_not_live live, lane_of_not_live (i := i.withLimiters limiters) live]

end MixInput

/-- Talk-through runs where the carrier is an ACTIVE RESCUE carrier in talk mode ON, or AUTO with the reference lost or the row asking (R19). -/
theorem talkThrough_eq (s : State) (c : CarrierId) :
    talkThrough s c = ((s.ctb.get c).state == .active && (s.ctb.get c).fields.kind == .rescue &&
      ((s.ctb.get c).fields.talkMode == .on ||
        ((s.ctb.get c).fields.talkMode == .auto && (s.fps.ref != .locked || s.ict.row.talkAuto)))) := by
  have island : s.fps.island = (s.fps.ref != .locked) := decide_not
  rw [← island]
  rfl

theorem Combiner.talkBlock_eq (u : Combiner) (c : CarrierId) (n : FrameNo) :
    u.talkBlock c n = (((u.history.get c).find? fun e => e.hfn == n).map (·.block)).getD zeroBlock := by
  have search : (u.history.get c).find? (fun e => e.hfn == n) = (u.history.get c).find? fun e => e.hfn = n := rfl
  rw [search]
  unfold Combiner.talkBlock
  cases (u.history.get c).find? fun e => e.hfn = n <;> rfl

theorem MixInput.trim_eq (i : MixInput) (c : CarrierId) (g : GroupId) :
    i.trim c g = (((i.pre.ctb.get c).placements.get g).map (·.trim)).getD 4096 := by
  unfold MixInput.trim
  cases (i.pre.ctb.get c).placements.get g <;> rfl

/-- The CLIP of a lane, where saturation changed some of its components (R58). -/
def MixedLane.clips (g : GroupId) (l : LaneId) (x : MixedLane) : List Notice :=
  match x.owner, x.clipped with
  | some c, k + 1 => [.clipLane g l c (k + 1)]
  | _, _ => []

/-- The CLIPs of a group, lane by lane (R58). -/
theorem laneClips_eq (g : GroupId) (m : Table MixedLane 32) :
    laneClips g m = (List.finRange 32).flatMap fun l => (m.get l).clips g l := by
  unfold laneClips
  rw [List.filterMap_eq_flatMap_toList]
  refine congrArg (List.flatMap · _) (funext fun l => ?_)
  unfold MixedLane.clips
  dsimp only
  cases (m.get l).owner with
  | none => rfl
  | some c => cases (m.get l).clipped <;> rfl

theorem laneClips_make (g : GroupId) (lane : LaneId → MixedLane) :
    laneClips g (.make lane) = (List.finRange 32).flatMap fun l => (lane l).clips g l := by
  simp only [laneClips_eq, Table.get_make]

end Sys2Proof.Machine

namespace Sys2Proof.Proofs
open Sys2Proof Sys2Proof.Machine

/-- Settles O19: a protected lane's gain and components do not read the limiters; a LIVE lane's source, voice and gain are those of R49 to R56,
so that its components are the exact ones, saturated and counted; the CLIPs go lane by lane. -/
theorem limiterNeverTouchesProtectedLanes : Obligations.LimiterNeverTouchesProtectedLanes := by
  refine ⟨fun i g l c limiters owner prot => ?_, fun i g l => ?_, fun i g => ?_⟩
  · exact MixInput.lane_withLimiters limiters owner ((i.protects_iff _ c).2 prot)
  · intro x y
    refine ⟨fun silent => ?_, fun c live owner => ?_⟩
    · have quiet : y = .silent := MixInput.lane_of_not_live silent
      rw [quiet]
      exact ⟨rfl, power_zeroBlock, rfl, rfl, rfl⟩
    · intro r f talks zeros p voice mixed gain protects effective exactI exactQ changed
      have lane : y = i.liveLane g x c := MixInput.lane_of_live live owner
      have runs : talkThrough i.pre c = talks := talkThrough_eq i.pre c
      have source : i.source c = p := by
        rw [MixInput.source, runs]
        exact if_congr Iff.rfl (i.pre.ucb.talkBlock_eq c _) rfl
      have speaker : x.player.bind i.play = voice := by
        simp only [voice]
        cases x.player with
        | none => rfl
        | some id => cases id <;> rfl
      have crossFaded : ∀ k, faded p voice k =
          (mixed (p.get k).i.toInt (fun b => (b.get k).i.toInt), mixed (p.get k).q.toInt (fun b => (b.get k).q.toInt)) := by
        intro k
        simp only [mixed]
        cases voice <;> rfl
      have base : i.baseGain c = if talks then f.talkGain else f.dlGain := by rw [MixInput.baseGain, runs]
      have unlimited : (laneGain (i.baseGain c) (i.trim c g) : Int) = gain := by rw [laneGain_cast, base, MixInput.trim_eq]
      have limited : (i.gain g x c : Int) = effective := by
        rw [MixInput.gain, effectiveGain_cast, unlimited]
        rfl
      have components : i.components g x c = fun k => (exactI k, exactQ k) := by
        funext k
        rw [MixInput.components, source, speaker, crossFaded, applyGain, applyGain, limited]
      rw [lane, MixInput.liveLane_eq, components]
      have counted := saturateBlock_count fun k => (exactI k, exactQ k)
      exact ⟨saturateBlock_get _, counted, rfl, rfl⟩
  · exact laneClips_make g (i.lane g)

end Sys2Proof.Proofs
end

section
/-! The law of the limiters (R63, R68, R204): factors between floor and 4096, saved floors in range, and limiters at rest while the hub is held. -/
namespace Sys2Proof.Machine

/-- What the law reads of the hub. -/
structure LimiterView where
  dmx : Table Limiter 8
  config : GroupId → GroupConfig
  snapshots : List Snapshot
  pins : Pins

/-- The hub's own limiters, group configurations, saved snapshots and holds. -/
def State.limiterView (s : State) : LimiterView := ⟨s.dmx, configOf s.lal, s.ast.snapshots, s.pins⟩

/-- Every floor of a saved configuration is in range (R22). -/
def Snapshot.FloorsOk (x : Snapshot) : Prop := ∀ g : GroupId, (x.groups.get g).floor ≤ 4096

/-- Every factor lies between its group's floor and 4096, and so do saved floors (R63, R22). -/
structure LimiterView.Bounded (x : LimiterView) : Prop where
  factor : ∀ g : GroupId, (x.config g).floor ≤ (x.dmx.get g).factor ∧ (x.dmx.get g).factor ≤ 4096
  saved : ∀ y ∈ x.snapshots, y.FloorsOk

/-- Every limiter stands at its reset values (R68). -/
def State.AtRest (s : State) : Prop := ∀ g : GroupId, s.dmx.get g = .default

/-- The hub is out of reset, with factors and floors in bounds. -/
structure State.Running (s : State) : Prop where
  awake : s.held = false
  bounded : s.limiterView.Bounded

theorem limiterOk_iff (s : State) : s.limiterOk ↔ (s.held = true → s.AtRest) ∧ s.limiterView.Bounded :=
  ⟨fun ⟨rest, factor, saved⟩ => ⟨rest, factor, saved⟩, fun ⟨rest, factor, saved⟩ => ⟨rest, factor, saved⟩⟩

theorem LimiterView.Bounded.floor_le {x : LimiterView} (b : x.Bounded) (g : GroupId) : (x.config g).floor ≤ 4096 :=
  (b.factor g).1.trans (b.factor g).2

namespace State.Running
variable {s t : State}

theorem limiterOk (run : s.Running) : s.limiterOk :=
  (limiterOk_iff s).2 ⟨fun held => Bool.noConfusion (held.symm.trans run.awake), run.bounded⟩

theorem of_eq (run : s.Running) (same : t.limiterView = s.limiterView) : t.Running :=
  ⟨(congrArg (fun x : LimiterView => x.pins.resetInput || x.pins.powerHold) same).trans run.awake, same ▸ run.bounded⟩

end State.Running

theorem limiterView_of_snapshots {s : State} {u : Store} (same : u.snapshots = s.ast.snapshots) :
    ({ s with ast := u } : State).limiterView = s.limiterView := congrArg (LimiterView.mk _ _ · _) same

theorem limiterView_of_config {s : State} {lal : Table Group 8} (same : ∀ g, configOf lal g = configOf s.lal g) :
    ({ s with lal := lal } : State).limiterView = s.limiterView := congrArg (LimiterView.mk _ · _ _) (funext same)

theorem withAlloc_limiterView {s : State} {a : Alloc} (same : ∀ g, configOf a.lal g = configOf s.lal g) :
    (s.withAlloc a).limiterView = s.limiterView := congrArg (LimiterView.mk _ · _ _) (funext same)

theorem withBku_limiterView (s : State) (b : Bku) : (s.withBku b).limiterView = s.limiterView := rfl

/-! ### The carrier requests -/

theorem carset_limiterView (a : CarsetArgs) (s : State) : (carset a s).state.limiterView = s.limiterView := by
  unfold carset
  split
  · dsimp only
    split
    · split <;> rfl
    · rfl
  · rfl

theorem caron_limiterView (n : Nat) (s : State) : (caron n s).state.limiterView = s.limiterView := by
  unfold caron
  split
  · rfl
  · next c _ =>
    split
    · rfl
    · exact withAlloc_limiterView (s.alloc.activate_records s.ict.row c).config

theorem caroff_limiterView (n : Nat) (s : State) : (caroff n s).state.limiterView = s.limiterView := by
  unfold caroff
  split
  · rfl
  · next c _ =>
    split
    · rfl
    · exact withAlloc_limiterView (s.alloc.exits_records s.ict.row c).config

theorem carclr_limiterView (n : Nat) (s : State) : (carclr n s).state.limiterView = s.limiterView := by
  unfold carclr
  split
  · rfl
  · split <;> rfl

theorem trim_limiterView (n g v : Nat) (s : State) : (trim n g v s).state.limiterView = s.limiterView := by
  unfold trim
  split
  · dsimp only
    split
    · rfl
    · split <;> rfl
  · rfl

/-! ### GRPSET -/

/-- The factor of a group whose floor is raised follows it (R26). -/
theorem tuned_running {s : State} (run : s.Running) (g : GroupId) {cfg : GroupConfig} (floor : cfg.floor ≤ 4096) :
    (s.tuned g cfg).Running := by
  refine ⟨run.awake, fun h => ?_, run.bounded.saved⟩
  have before := run.bounded.factor h
  simp only [State.limiterView, configOf_tuned] at before ⊢
  obtain rfl | ne := eq_or_ne g h
  · simp only [if_pos, State.tuned, Table.get_edit_self]
    exact ⟨le_max_right _ _, max_le before.2 floor⟩
  · simp only [if_neg ne, State.tuned, Table.get_edit_ne _ _ ne]
    exact before

theorem setUpAnew_limiterView (s : State) (g : GroupId) (cfg : GroupConfig) :
    (s.setUpAnew g cfg).limiterView = (s.tuned g cfg).limiterView := rfl

theorem grpset_running (a : GrpsetArgs) {s : State} (run : s.Running) : (grpset a s).state.Running := by
  by_cases unnamed : 8 ≤ a.group ∨ codeForm a.form = none
  · rw [grpset_of_unnamed unnamed]; exact run
  · obtain ⟨near, form⟩ := not_or.1 unnamed
    obtain ⟨form, named⟩ := Option.ne_none_iff_exists'.1 form
    let g : GroupId := ⟨a.group, not_le.1 near⟩
    cases checks : grpsetRefusal s g a form with
    | some st => rw [grpset_of_refusal (g := g) rfl named checks]; exact run
    | none =>
      have tuned : (s.tuned g (grpsetConfig a form)).Running := tuned_running run g (min_le_right _ _)
      rw [grpset_of_pass (g := g) rfl named checks, okWith]
      dsimp only
      split
      · exact tuned.of_eq (setUpAnew_limiterView _ _ _)
      · exact tuned

/-! ### Levels -/

theorem incidentEvent_limiterView (cause : IncidentCause) (mask : Nat) (s : State) :
    (incidentEvent cause mask s).limiterView = s.limiterView := by
  have configs := (s.alloc.incident_records s.ict.row).config
  rw [incidentEvent_eq, withBku_limiterView]
  exact withAlloc_limiterView (s := s.raise _) configs

theorem changeLevels_limiterView (cause : IncidentCause) (i : Incident) (s : State) :
    (changeLevels cause i s).limiterView = s.limiterView := by
  unfold changeLevels
  dsimp only
  split
  · rfl
  · exact incidentEvent_limiterView _ _ _

theorem incclr_limiterView (s : State) : (incclr s).state.limiterView = s.limiterView := by
  unfold incclr
  split
  · rfl
  · exact changeLevels_limiterView _ _ _

theorem profset_limiterView (a : ProfsetArgs) (s : State) : (profset a s).state.limiterView = s.limiterView := by
  unfold profset
  split
  · dsimp only
    split
    · exact incidentEvent_limiterView _ _ _
    · rfl
  · rfl

/-! ### The other requests -/

theorem sprst_limiterView (n : Nat) (s : State) : (sprst n s).state.limiterView = s.limiterView := by
  unfold sprst
  split
  · rfl
  · split <;> rfl

theorem annc_limiterView (a : AnncArgs) (s : State) : (annc a s).state.limiterView = s.limiterView := by
  unfold annc
  split
  · rfl
  · repeat (split; · rfl)
    rfl

theorem ancan_limiterView (n : Nat) (s : State) : (ancan n s).state.limiterView = s.limiterView := by
  unfold ancan
  split
  · rfl
  · split <;> rfl

theorem pgopen_limiterView (n : Nat) (s : State) : (pgopen n s).state.limiterView = s.limiterView := by
  unfold pgopen
  split <;> rfl

theorem pgdata_limiterView (off : Nat) (bs : List Byte) (s : State) : (pgdata off bs s).state.limiterView = s.limiterView := by
  unfold pgdata
  split
  · rfl
  · split
    · rfl
    · split <;> rfl

theorem pgcommit_limiterView (s : State) : (pgcommit s).state.limiterView = s.limiterView := by
  unfold pgcommit
  split
  · rfl
  · next l _ =>
    split
    · rfl
    · exact limiterView_of_snapshots (Store.commit_snapshots s.ast l)

theorem blkerase_limiterView (n : Nat) (s : State) : (blkerase n s).state.limiterView = s.limiterView := by
  unfold blkerase
  split
  · rfl
  · split <;> rfl

theorem blkguard_limiterView (n bar : Nat) (s : State) : (blkguard n bar s).state.limiterView = s.limiterView := by
  unfold blkguard
  split
  · rfl
  · split
    · rfl
    · split <;> rfl
  · rfl

theorem msgdef_limiterView (a : MsgdefArgs) (s : State) : (msgdef a s).state.limiterView = s.limiterView := by
  unfold msgdef
  split <;> rfl

theorem msgclr_limiterView (n : Nat) (s : State) : (msgclr n s).state.limiterView = s.limiterView := by
  unfold msgclr
  split
  · rfl
  · split <;> rfl

theorem trksel_limiterView (n : Nat) (s : State) : (trksel n s).state.limiterView = s.limiterView := by
  unfold trksel
  split
  · rfl
  · dsimp only
    split
    · rfl
    · split <;> rfl

theorem restart_limiterView (n : Nat) (s : State) : (restart n s).state.limiterView = s.limiterView := by
  unfold restart
  split
  · rfl
  · split <;> rfl

/-- A snapshot taken holds the hub's own floors (R177). -/
theorem save_running {s : State} (run : s.Running) : (save s).state.Running := by
  unfold save
  split
  · exact run
  · refine ⟨run.awake, run.bounded.factor, fun y hy g => ?_⟩
    obtain rfl := List.mem_singleton.1 hy
    simp only [State.snapshot, Table.get_make]
    exact run.bounded.floor_le g

/-- Any request, answered. -/
theorem requestAct_running (v : State → State) (r : Request) {s : State} (run : s.Running) : (requestAct v r s).state.Running := by
  cases r with
  | rdrec sel part => exact (rdrecOf_state (v s) sel part s).symm ▸ run
  | carset a => exact run.of_eq (carset_limiterView a s)
  | caron n => exact run.of_eq (caron_limiterView n s)
  | caroff n => exact run.of_eq (caroff_limiterView n s)
  | carclr n => exact run.of_eq (carclr_limiterView n s)
  | trim n g x => exact run.of_eq (trim_limiterView n g x s)
  | grpset a => exact grpset_running a run
  | sprst n => exact run.of_eq (sprst_limiterView n s)
  | incset n => exact run.of_eq (changeLevels_limiterView _ _ s)
  | incclr => exact run.of_eq (incclr_limiterView s)
  | profset a => exact run.of_eq (profset_limiterView a s)
  | annc a => exact run.of_eq (annc_limiterView a s)
  | ancan n => exact run.of_eq (ancan_limiterView n s)
  | voxset a => exact run.of_eq rfl
  | pgopen n => exact run.of_eq (pgopen_limiterView n s)
  | pgdata off bs => exact run.of_eq (pgdata_limiterView off bs s)
  | pgcommit => exact run.of_eq (pgcommit_limiterView s)
  | blkerase n => exact run.of_eq (blkerase_limiterView n s)
  | blkguard n bar => exact run.of_eq (blkguard_limiterView n bar s)
  | msgdef a => exact run.of_eq (msgdef_limiterView a s)
  | msgclr n => exact run.of_eq (msgclr_limiterView n s)
  | trksel n => exact run.of_eq (trksel_limiterView n s)
  | timset limit x => exact run.of_eq rfl
  | save => exact save_running run
  | restart n => exact run.of_eq (restart_limiterView n s)
  | causeclr => exact run.of_eq rfl

theorem serve_running (v : State → State) (p : TrunkId) (tag : Nat) (r : Request) {s : State} (run : s.Running) :
    (serve p tag (requestCode r) (requestAct v r) s).Running := by
  unfold serve
  obtain ⟨-, refused⟩ | ⟨-, -, -, refused⟩ | ⟨-, -, heard⟩ := check_cases p tag (requestCode r) (requestAct v r) s
  · rw [refused]; exact run.of_eq rfl
  · rw [refused]; exact run.of_eq rfl
  · rw [heard]; exact (requestAct_running v r run).of_eq rfl

/-! ### Resets and start-up (R68, R205) -/

/-- Limiters at rest are in bounds under any floors in range. -/
theorem State.AtRest.bounded {s : State} (rest : s.AtRest) (floors : ∀ g, (configOf s.lal g).floor ≤ 4096)
    (saved : ∀ y ∈ s.ast.snapshots, y.FloorsOk) : s.limiterView.Bounded := by
  refine ⟨fun g => ?_, saved⟩
  have unity : (s.limiterView.dmx.get g).factor = 4096 := congrArg (·.factor) (rest g)
  rw [unity]
  exact ⟨floors g, le_rfl⟩

theorem resetBlocks_atRest (keep : Bool) (causes : CauseRecord) (s : State) : (resetBlocks keep causes s).AtRest :=
  Table.get_fill _

theorem resetBlocks_bounded (keep : Bool) (causes : CauseRecord) {s : State} (b : s.limiterView.Bounded) :
    (resetBlocks keep causes s).limiterView.Bounded := by
  refine (resetBlocks_atRest keep causes s).bounded (fun g => ?_) ?_
  · simp only [configOf, resetBlocks, Table.get_make, Group.empty]
    cases keep with
    | false => exact (by decide : GroupConfig.default.floor ≤ 4096)
    | true => exact b.floor_le g
  · rw [resetBlocks, Store.afterReset_snapshots]
    exact fun y hy => b.saved y (List.mem_append_left _ hy)

theorem Alloc.configOf_activateAll (row : ProfileRow) (ids : List CarrierId) : ∀ (a : Alloc) (made refused : Nat) (g : GroupId),
    configOf (activateAll row ids (a, made, refused)).1.lal g = configOf a.lal g := by
  induction ids with
  | nil => exact fun _ _ _ _ => rfl
  | cons c ids ih =>
    intro a made refused g
    unfold activateAll
    split
    · exact (ih _ _ _ g).trans ((a.activate_records row c).config g)
    · exact ih _ _ _ g

theorem startUp_limiterView (outcome : SettingsOutcome) (ids : List CarrierId) (s : State) :
    (startUp outcome ids s).limiterView = s.limiterView :=
  withAlloc_limiterView (s := s.raise (.start s.mga.causes outcome 0 0)) (Alloc.configOf_activateAll s.ict.row ids s.alloc 0 0)

/-- What is loaded was saved with its floors in range, and the limiters it meets are at rest. -/
theorem startUpLoading_bounded {s : State} (rest : s.AtRest) (b : s.limiterView.Bounded) :
    (startUpLoading s).limiterView.Bounded := by
  unfold startUpLoading
  split
  · rw [startUp_limiterView]; exact b
  · next x settings =>
    have floors : x.FloorsOk := b.saved x (List.mem_append_left _ (by rw [settings]; exact List.mem_singleton_self x))
    have loaded : (s.load x).AtRest := rest
    dsimp only
    rw [startUp_limiterView]
    refine loaded.bounded (fun g => ?_) b.saved
    simp only [configOf, State.load, Table.get_make, Group.empty]
    exact floors g

theorem startUpLoading_pins (s : State) : (startUpLoading s).pins = s.pins := by
  unfold startUpLoading
  split <;> rfl

theorem startUpLoading_running {s : State} (awake : s.held = false) (rest : s.AtRest) (b : s.limiterView.Bounded) :
    (startUpLoading s).Running :=
  ⟨(congrArg (fun x : Pins => x.resetInput || x.powerHold) (startUpLoading_pins s)).trans awake, startUpLoading_bounded rest b⟩

theorem restartNow_running (f : RestartForm) {s : State} (run : s.Running) : (restartNow f s).Running := by
  cases f with
  | keep =>
    have reset : (resetBlocks true (s.mga.causes.restarted .keep) s).Running := ⟨run.awake, resetBlocks_bounded true _ run.bounded⟩
    exact reset.of_eq (startUp_limiterView _ _ _)
  | reload => exact startUpLoading_running run.awake (resetBlocks_atRest _ _ _) (resetBlocks_bounded false _ run.bounded)

theorem restartTakesEffect_running {s : State} (run : s.Running) : (restartTakesEffect s).Running := by
  unfold restartTakesEffect
  split
  · exact restartNow_running _ run
  · exact run

/-- A reset leaves the limiters at rest, held or not. -/
theorem resetBlocks_limiterOk (keep : Bool) (causes : CauseRecord) (pins : Pins) {s : State} (b : s.limiterView.Bounded) :
    ({ resetBlocks keep causes s with pins := pins } : State).limiterOk := by
  obtain ⟨factor, saved⟩ := resetBlocks_bounded keep causes b
  exact ⟨fun _ => resetBlocks_atRest keep causes s, factor, saved⟩

theorem leaveReset_limiterOk {s : State} (rest : s.AtRest) (b : s.limiterView.Bounded) : (leaveReset s).limiterOk := by
  unfold leaveReset
  split
  · exact (limiterOk_iff s).2 ⟨fun _ => rest, b⟩
  · next awake => exact (startUpLoading_running (Bool.eq_false_of_not_eq_true awake) rest b).limiterOk

section Acting
variable {s : State} (law : s.limiterOk)
include law

theorem powerOn_limiterOk : (powerOn s).limiterOk := resetBlocks_limiterOk false _ _ ((limiterOk_iff s).1 law).2

theorem lineReset_limiterOk : (lineReset s).limiterOk := by
  unfold lineReset
  split
  · exact law
  · exact resetBlocks_limiterOk false _ _ ((limiterOk_iff s).1 law).2

theorem resetInputRelease_limiterOk : (resetInputRelease s).limiterOk := by
  obtain ⟨rest, b⟩ := (limiterOk_iff s).1 law
  unfold resetInputRelease
  split
  · next input =>
    have held : s.held = true := by rw [State.held, input, Bool.true_or]
    exact leaveReset_limiterOk (s := { s with pins := { s.pins with resetInput := false } }) (rest held) ⟨b.factor, b.saved⟩
  · exact law

theorem suppliesSteady_limiterOk : (suppliesSteady s).limiterOk := by
  obtain ⟨rest, b⟩ := (limiterOk_iff s).1 law
  unfold suppliesSteady
  split
  · next hold =>
    have held : s.held = true := by rw [State.held, hold, Bool.or_true]
    exact leaveReset_limiterOk (s := { s with pins := { s.pins with powerHold := false } }) (rest held) ⟨b.factor, b.saved⟩
  · exact law

end Acting

/-! ### Events -/

theorem overBudget_running (g : GroupId) {s : State} (run : s.Running) : (overBudget g s).Running := by
  rw [overBudget_eq]
  dsimp only
  split
  · refine ⟨run.awake, fun h => ?_, run.bounded.saved⟩
    obtain rfl | ne := eq_or_ne g h
    · simp only [State.limiterView, Table.get_put_self]
      exact run.bounded.factor g
    · simp only [State.limiterView, Table.get_put_ne _ _ ne]
      exact run.bounded.factor h
  · exact run

theorem holdoverExpiry_limiterView (s : State) : (holdoverExpiry s).limiterView = s.limiterView := by
  unfold holdoverExpiry
  split <;> rfl

theorem laneGuardExpiry_limiterView (g : GroupId) (l : LaneId) (s : State) :
    (laneGuardExpiry g l s).limiterView = s.limiterView := by
  rw [laneGuardExpiry_eq]
  split
  · refine limiterView_of_config fun h => ?_
    rw [configOf, Table.get_edit]
    split
    · next same => subst same; rfl
    · rfl
  · rfl

theorem missLimitReached_limiterView (g : GroupId) (k : Pos) (sd : Side) (s : State) :
    (missLimitReached g k sd s).limiterView = s.limiterView := by
  unfold missLimitReached
  dsimp only
  split <;> rfl

theorem hangExpiry_limiterView (g : GroupId) (l : LaneId) (k : Pos) (s : State) : (hangExpiry g l k s).limiterView = s.limiterView := by
  rw [hangExpiry_eq]
  split <;> rfl

theorem fadeEnd_limiterView (id : PlayerId) (s : State) : (fadeEnd id s).limiterView = s.limiterView := by
  unfold fadeEnd
  dsimp only
  split
  · split <;> rfl
  · split <;> rfl
  · rfl

theorem gapEnd_limiterView (id : PlayerId) (s : State) : (gapEnd id s).limiterView = s.limiterView := by
  unfold gapEnd
  dsimp only
  split <;> rfl

theorem liveSpeechLoss_limiterView (id : PlayerId) (s : State) : (liveSpeechLoss id s).limiterView = s.limiterView := by
  unfold liveSpeechLoss
  dsimp only
  split <;> rfl

theorem spanUplinkFrameArrival_limiterView (p : SpanId) (bs : List Byte) (s : State) :
    (spanUplinkFrameArrival p bs s).limiterView = s.limiterView := by
  unfold spanUplinkFrameArrival
  split <;> rfl

theorem storeProgramCompletion_limiterView (r : StoreResult) (s : State) :
    (storeProgramCompletion r s).limiterView = s.limiterView := by
  unfold storeProgramCompletion
  split
  · next l _ =>
    exact limiterView_of_snapshots
      ((Store.advance_snapshots ((s.ast.programEnd l r).record (.program l.page r))).trans (s.ast.programEnd_snapshots l r))
  · rfl

theorem storeEraseCompletion_limiterView (r : StoreResult) (s : State) : (storeEraseCompletion r s).limiterView = s.limiterView := by
  unfold storeEraseCompletion
  split
  · next b _ =>
    exact limiterView_of_snapshots
      ((Store.advance_snapshots ((s.ast.eraseEnd b r).record (.erase b r))).trans (s.ast.eraseEnd_snapshots b r))
  · rfl

/-- The area takes the snapshot that was saved, or none (R178). -/
theorem settingsSaveCompletion_running (r : StoreResult) {s : State} (run : s.Running) : (settingsSaveCompletion r s).Running := by
  unfold settingsSaveCompletion
  split
  · exact run
  · next x saving =>
    have floors : x.FloorsOk := run.bounded.saved x (List.mem_append_right _ (by rw [saving]; exact List.mem_singleton_self x))
    refine ⟨run.awake, run.bounded.factor, fun y hy => ?_⟩
    cases r with
    | pass => obtain rfl := List.mem_singleton.1 hy; exact floors
    | fail => cases hy

/-! ### The slot event -/

/-- The update of a slot keeps the factor in bounds (R63). -/
theorem MixInput.limit_bounds (i : MixInput) (g : GroupId) (b : i.pre.limiterView.Bounded) :
    (configOf i.pre.lal g).floor ≤ (i.limit g).1.factor ∧ (i.limit g).1.factor ≤ 4096 := by
  obtain ⟨low, high⟩ := b.factor g
  unfold MixInput.limit
  dsimp only
  split
  · exact ⟨low, high⟩
  · exact factorAfter_bounds low high

/-- The works of a slot, in any order, write the limiters as the mixer updates them. -/
theorem works_limiterView (o : WorkOrder) (i : MixInput) (s : State) :
    (works o i s).limiterView = { s.limiterView with dmx := .make fun g => (i.limit g).1 } := by
  have mixer : ∀ t, (mixerWork i t).limiterView = { t.limiterView with dmx := .make fun g => (i.limit g).1 } := fun _ => rfl
  have players : ∀ t, (playerWork i t).limiterView = t.limiterView := fun _ => rfl
  have spans : ∀ t, (spanWork i t).limiterView = t.limiterView := by
    intro t
    unfold spanWork closeSlot
    dsimp only
    split <;> rfl
  cases o <;> simp only [works, mixer, players, spans]

theorem slotWorked_running (n : FrameNo) (ord : SlotOrder) {s : State} (run : s.Running) : (slotWorked n ord s).Running := by
  have opened : (openSlot n ord s).1.limiterView = s.limiterView := by
    refine congrArg (LimiterView.mk _ · _ _) (funext fun g => ?_)
    simp only [openSlot, configOf, markLanes, guardStep, Table.get_make]
  let i := slotInput n s (openSlot n ord s).2.active
  have worked : (slotWorked n ord s).limiterView = { s.limiterView with dmx := .make fun g => (i.limit g).1 } := by
    rw [← opened]
    exact works_limiterView ord.works i _
  have awake : (slotWorked n ord s).held = s.held :=
    congrArg (fun x : LimiterView => x.pins.resetInput || x.pins.powerHold) worked
  refine ⟨awake.trans run.awake, ?_⟩
  rw [worked]
  refine ⟨fun g => ?_, run.bounded.saved⟩
  rw [Table.get_make]
  exact i.limit_bounds g run.bounded

theorem takeFrameCell_running (v : State → State) (p : TrunkId) (f : Option (List Byte)) {s : State} (run : s.Running) :
    (takeFrameCell v p f s).Running := by
  unfold takeFrameCell
  split
  · unfold takeCell
    split
    · exact run.of_eq rfl
    · exact run
    · exact run.of_eq rfl
    · exact serve_running v p _ _ run
  · exact run

/-- The line sample and the two cells, in any order. -/
theorem tail_running (o : TailOrder) {line reqA reqB : State → State} (hl : ∀ {s : State}, s.Running → (line s).Running)
    (ha : ∀ {s : State}, s.Running → (reqA s).Running) (hb : ∀ {s : State}, s.Running → (reqB s).Running) {s : State} (run : s.Running) :
    (tail o line reqA reqB s).Running := by
  cases o with
  | lineAB => exact hb (ha (hl run))
  | lineBA => exact ha (hb (hl run))
  | aLineB => exact hb (hl (ha run))
  | bLineA => exact ha (hl (hb run))
  | abLine => exact hl (hb (ha run))
  | baLine => exact hl (ha (hb run))

theorem slot_running (line : Bool) (ord : SlotOrder) {s : State} (run : s.Running) : (slot line ord s).Running := by
  unfold slot
  split
  · exact restartNow_running _ run
  · have ended := tail_running ord.tail (line := lineSample s.fps.next line) (fun r => r.of_eq (changeLevels_limiterView _ _ _))
      (takeFrameCell_running (earlyView ord s) .a (openSlot s.fps.next ord s).2.frameA)
      (takeFrameCell_running (earlyView ord s) .b (openSlot s.fps.next ord s).2.frameB) (slotWorked_running s.fps.next ord run)
    exact ended.of_eq rfl

/-! ### The step -/

theorem requestCommand_limiterOk {p : TrunkId} {tag : Nat} {s t : State} (law : s.limiterOk) (r : Request)
    (h : requestCommand p tag (requestCode r) (requestAct id r) s = .next t) : t.limiterOk := by
  cases h
  split
  · exact law
  · next awake =>
    have run : s.Running := ⟨Bool.eq_false_of_not_eq_true awake, ((limiterOk_iff s).1 law).2⟩
    exact ((serve_running id p tag r run).of_eq rfl).limiterOk

theorem eventCommand_limiterOk {act : State → State} {s t : State} (law : s.limiterOk) (event : s.Running → (act s).Running)
    (h : eventCommand act s = .next t) : t.limiterOk := by
  cases h
  split
  · exact law
  · next awake => exact (event ⟨Bool.eq_false_of_not_eq_true awake, ((limiterOk_iff s).1 law).2⟩).limiterOk

/-- Any command: what acts on a held hub leaves the limiters at rest, and any other acts on a running hub alone. -/
theorem exec_limiterOk {i : Instr} {s t : State} (law : s.limiterOk) (h : exec i s = .next t) : t.limiterOk := by
  cases i with
  | slot line order => exact eventCommand_limiterOk law (slot_running line order) h
  | holdoverExpiry => exact eventCommand_limiterOk law (·.of_eq (holdoverExpiry_limiterView s)) h
  | laneGuardExpiry g l => exact eventCommand_limiterOk law (·.of_eq (laneGuardExpiry_limiterView g l s)) h
  | overBudget g => exact eventCommand_limiterOk law (overBudget_running g) h
  | missLimitReached g k sd => exact eventCommand_limiterOk law (·.of_eq (missLimitReached_limiterView g k sd s)) h
  | hangExpiry g l k => exact eventCommand_limiterOk law (·.of_eq (hangExpiry_limiterView g l k s)) h
  | fadeEnd p => exact eventCommand_limiterOk law (·.of_eq (fadeEnd_limiterView p s)) h
  | gapEnd p => exact eventCommand_limiterOk law (·.of_eq (gapEnd_limiterView p s)) h
  | liveSpeechLoss p => exact eventCommand_limiterOk law (·.of_eq (liveSpeechLoss_limiterView p s)) h
  | trunkFrameArrival p f => exact eventCommand_limiterOk (act := trunkFrameArrival p f) law (·.of_eq rfl) h
  | spanUplinkFrameArrival p f => exact eventCommand_limiterOk law (·.of_eq (spanUplinkFrameArrival_limiterView p f s)) h
  | rdrec p tag sel part => exact requestCommand_limiterOk law (.rdrec sel part) h
  | carset p tag a => exact requestCommand_limiterOk law (.carset a) h
  | caron p tag n => exact requestCommand_limiterOk law (.caron n) h
  | caroff p tag n => exact requestCommand_limiterOk law (.caroff n) h
  | carclr p tag n => exact requestCommand_limiterOk law (.carclr n) h
  | trim p tag n g v => exact requestCommand_limiterOk law (.trim n g v) h
  | grpset p tag a => exact requestCommand_limiterOk law (.grpset a) h
  | sprst p tag n => exact requestCommand_limiterOk law (.sprst n) h
  | incset p tag n => exact requestCommand_limiterOk law (.incset n) h
  | incclr p tag => exact requestCommand_limiterOk law .incclr h
  | profset p tag a => exact requestCommand_limiterOk law (.profset a) h
  | annc p tag a => exact requestCommand_limiterOk law (.annc a) h
  | ancan p tag n => exact requestCommand_limiterOk law (.ancan n) h
  | voxset p tag a => exact requestCommand_limiterOk law (.voxset a) h
  | pgopen p tag n => exact requestCommand_limiterOk law (.pgopen n) h
  | pgdata p tag off bs => exact requestCommand_limiterOk law (.pgdata off bs) h
  | pgcommit p tag => exact requestCommand_limiterOk law .pgcommit h
  | blkerase p tag n => exact requestCommand_limiterOk law (.blkerase n) h
  | blkguard p tag n bar => exact requestCommand_limiterOk law (.blkguard n bar) h
  | msgdef p tag a => exact requestCommand_limiterOk law (.msgdef a) h
  | msgclr p tag n => exact requestCommand_limiterOk law (.msgclr n) h
  | trksel p tag n => exact requestCommand_limiterOk law (.trksel n) h
  | timset p tag limit v => exact requestCommand_limiterOk law (.timset limit v) h
  | save p tag => exact requestCommand_limiterOk law .save h
  | restart p tag n => exact requestCommand_limiterOk law (.restart n) h
  | causeclr p tag => exact requestCommand_limiterOk law .causeclr h
  | storeProgramCompletion r => exact eventCommand_limiterOk law (·.of_eq (storeProgramCompletion_limiterView r s)) h
  | storeEraseCompletion r => exact eventCommand_limiterOk law (·.of_eq (storeEraseCompletion_limiterView r s)) h
  | settingsSaveCompletion r => exact eventCommand_limiterOk law (settingsSaveCompletion_running r) h
  | powerOn => cases h; exact powerOn_limiterOk law
  | lineReset => cases h; exact lineReset_limiterOk law
  | restartTakesEffect => exact eventCommand_limiterOk law restartTakesEffect_running h
  | resetInputRelease => cases h; exact resetInputRelease_limiterOk law
  | suppliesSteady => cases h; exact suppliesSteady_limiterOk law

end Sys2Proof.Machine

namespace Sys2Proof.Proofs
open Sys2Proof Sys2Proof.Machine

/-- Settles O53: the law reads limiters, configurations, snapshots and holds. A hub out of reset keeps its bounds through every part of a step, and
a load, which brings floors of its own, meets limiters that the reset has left at rest. -/
theorem stepKeepsLimiterBounds : Obligations.StepKeepsLimiterBounds := by
  intro s t law h
  unfold step at h
  split at h
  · cases h; exact law
  · next rest _ => exact exec_limiterOk (s := { s with pending := rest }) law h

end Sys2Proof.Proofs
end

section
/-! The requests that leave the span side alone: every one but GRPSET (R25) and SPRST (R93); and the events that do. -/
namespace Sys2Proof.Machine

variable (n : Nat) (s : State)

/-! ### Requests -/

theorem carset_sif (a : CarsetArgs) : (carset a s).state.sif = s.sif := by
  unfold carset
  split
  · dsimp only
    split
    · split <;> rfl
    · rfl
  · rfl

theorem caron_sif : (caron n s).state.sif = s.sif := by
  unfold caron
  split
  · rfl
  · split <;> rfl

theorem caroff_sif : (caroff n s).state.sif = s.sif := by
  unfold caroff
  split
  · rfl
  · split <;> rfl

theorem carclr_sif : (carclr n s).state.sif = s.sif := by
  unfold carclr
  split
  · rfl
  · split <;> rfl

theorem trim_sif (g v : Nat) : (trim n g v s).state.sif = s.sif := by
  unfold trim
  split
  · dsimp only
    split
    · rfl
    · split <;> rfl
  · rfl

theorem incclr_sif : (incclr s).state.sif = s.sif := by
  unfold incclr
  split
  · rfl
  · exact changeLevels_sif _ _ _

theorem profset_sif (a : ProfsetArgs) : (profset a s).state.sif = s.sif := by
  unfold profset
  split
  · dsimp only
    split
    · exact incidentEvent_sif _ _ _
    · rfl
  · rfl

theorem annc_sif (a : AnncArgs) : (annc a s).state.sif = s.sif := by
  unfold annc
  split
  · rfl
  · repeat (split; · rfl)
    rfl

theorem ancan_sif : (ancan n s).state.sif = s.sif := by
  unfold ancan
  split
  · rfl
  · split <;> rfl

theorem pgopen_sif : (pgopen n s).state.sif = s.sif := by
  unfold pgopen
  split <;> rfl

theorem pgdata_sif (bs : List Byte) : (pgdata n bs s).state.sif = s.sif := by
  unfold pgdata
  split
  · rfl
  · split
    · rfl
    · split <;> rfl

theorem pgcommit_sif : (pgcommit s).state.sif = s.sif := by
  unfold pgcommit
  split
  · rfl
  · split <;> rfl

theorem blkerase_sif : (blkerase n s).state.sif = s.sif := by
  unfold blkerase
  split
  · rfl
  · split <;> rfl

theorem blkguard_sif (bar : Nat) : (blkguard n bar s).state.sif = s.sif := by
  unfold blkguard
  split
  · rfl
  · split
    · rfl
    · split <;> rfl
  · rfl

theorem msgdef_sif (a : MsgdefArgs) : (msgdef a s).state.sif = s.sif := by
  unfold msgdef
  split <;> rfl

theorem msgclr_sif : (msgclr n s).state.sif = s.sif := by
  unfold msgclr
  split
  · rfl
  · split <;> rfl

theorem trksel_sif : (trksel n s).state.sif = s.sif := by
  unfold trksel
  split
  · rfl
  · dsimp only
    split
    · rfl
    · split <;> rfl

theorem save_sif : (save s).state.sif = s.sif := by
  unfold save
  split <;> rfl

theorem restart_sif : (restart n s).state.sif = s.sif := by
  unfold restart
  split
  · rfl
  · split <;> rfl

/-! ### Events -/

theorem holdoverExpiry_sif : (holdoverExpiry s).sif = s.sif := by
  unfold holdoverExpiry
  split <;> rfl

theorem laneGuardExpiry_sif (g : GroupId) (l : LaneId) : (laneGuardExpiry g l s).sif = s.sif := by
  rw [laneGuardExpiry_eq]
  split <;> rfl

theorem overBudget_sif (g : GroupId) : (overBudget g s).sif = s.sif := by
  unfold overBudget
  dsimp only
  split <;> rfl

theorem hangExpiry_sif (g : GroupId) (l : LaneId) (k : Pos) : (hangExpiry g l k s).sif = s.sif := by
  rw [hangExpiry_eq]
  split <;> rfl

theorem fadeEnd_sif (id : PlayerId) : (fadeEnd id s).sif = s.sif := by
  unfold fadeEnd
  dsimp only
  split
  · split <;> rfl
  · split <;> rfl
  · rfl

theorem gapEnd_sif (id : PlayerId) : (gapEnd id s).sif = s.sif := by
  unfold gapEnd
  dsimp only
  split <;> rfl

theorem liveSpeechLoss_sif (id : PlayerId) : (liveSpeechLoss id s).sif = s.sif := by
  unfold liveSpeechLoss
  dsimp only
  split <;> rfl

theorem storeProgramCompletion_sif (r : StoreResult) : (storeProgramCompletion r s).sif = s.sif := by
  unfold storeProgramCompletion
  split <;> rfl

theorem storeEraseCompletion_sif (r : StoreResult) : (storeEraseCompletion r s).sif = s.sif := by
  unfold storeEraseCompletion
  split <;> rfl

theorem settingsSaveCompletion_sif (r : StoreResult) : (settingsSaveCompletion r s).sif = s.sif := by
  unfold settingsSaveCompletion
  split <;> rfl

end Sys2Proof.Machine
end

section
/-! The move of a port's link (R72, R73). -/
namespace Sys2Proof.Machine

/-- A port moved, with SPAN_STATE where its link changed (R72). -/
def Spans.linkMoved (v : Spans) (p : SpanId) (vd : SpanVerdict) : Spans :=
  let new := (v.ports.get p).move vd
  { v with
    ports := v.ports.put p new
    out := v.out ++ if new.link = (v.ports.get p).link then [] else [.spanState p new.link] }

/-- A notice where something has changed. -/
theorem Spans.said_eq (c : Prop) [Decidable c] (v : Spans) (n : Notice) :
    (if c then v else v.say n) = { v with out := v.out ++ if c then [] else [n] } := by
  split
  · rw [List.append_nil]
  · rfl

/-- A port moves; where it goes DOWN from UP, the contexts of the side it is are silenced (R72, R73). -/
theorem Spans.movePort_eq (v : Spans) (lal : Table Group 8) (p : SpanId) (vd : SpanVerdict) :
    v.movePort lal p vd =
      if (v.ports.get p).link = .up ∧ ((v.ports.get p).move vd).link = .down then
        (servedBy lal p).elim (v.linkMoved p vd) fun x => (List.finRange 6).foldl (Spans.silence x.1 x.2) (v.linkMoved p vd)
      else v.linkMoved p vd := by
  have moved := Spans.said_eq (((v.ports.get p).move vd).link = (v.ports.get p).link)
    { v with ports := v.ports.put p ((v.ports.get p).move vd) } (.spanState p ((v.ports.get p).move vd).link)
  unfold Spans.movePort
  dsimp only
  rw [moved]
  split
  · next up down served =>
    have lost : (v.ports.get p).link = .up ∧ ((v.ports.get p).move vd).link = .down := ⟨up, down⟩
    rw [if_pos lost, served]
    rfl
  · next other =>
    by_cases lost : (v.ports.get p).link = .up ∧ ((v.ports.get p).move vd).link = .down
    · rw [if_pos lost]
      cases served : servedBy lal p with
      | none => rfl
      | some x => exact absurd served (other x.1 x.2 lost.1 lost.2)
    · rw [if_neg lost]
      rfl

end Sys2Proof.Machine
end

section
/-! The law of the side contexts (R74): for one remote, for the span interface's tables, and for the hub; and that every part of a step keeps it. -/
namespace Sys2Proof.Machine

/-! ### One remote -/

/-- A remote at position index `k` agrees with the configuration of its group (R74). -/
structure Remote.Follows (r : Remote) (cfg : GroupConfig) (k : Pos) : Prop where
  reasonA : r.ctxA.reasonOk
  reasonB : r.ctxB.reasonOk
  feed : cfg.form ≠ .ring → r.feed = .a
  used : cfg.configured k = true → r.ctxA.state ≠ .idle ∧ (r.ctxB.state = .idle ↔ cfg.form ≠ .ring)
  spare : cfg.configured k = false → r.ctxA.state = .idle ∧ r.ctxB.state = .idle ∧ r.inService = false

theorem Context.reasonOk_new : Context.new.reasonOk := ⟨fun _ => rfl, fun _ => rfl⟩

/-- A context that may stand where `c` stood: in use exactly where `c` was, with a reason where R74 wants one. -/
def Context.Continues (c c' : Context) : Prop := (c'.state = .idle ↔ c.state = .idle) ∧ (c.reasonOk → c'.reasonOk)

/-- A context whose state and reason stand. -/
theorem Context.Continues.of_same {c c' : Context} (state : c'.state = c.state) (reason : c'.reason = c.reason) : c.Continues c' := by
  rw [Context.Continues, Context.reasonOk, Context.reasonOk, state, reason]
  exact ⟨Iff.rfl, id⟩

/-- A context in use that starts or ends a wait. -/
theorem Context.Continues.of_busy {c c' : Context} (busy : c.state ≠ .idle) (busy' : c'.state = .waiting ∨ c'.state = .tracking)
    (reason : c'.reasonOk) : c.Continues c' := by
  refine ⟨⟨fun idle => ?_, fun idle => absurd idle busy⟩, fun _ => reason⟩
  obtain other | other := busy' <;> exact nomatch idle.symm.trans other

namespace Remote.Follows
variable {r : Remote} {cfg : GroupConfig} {k : Pos}

theorem setCtx (ok : r.Follows cfg k) {sd : Side} {c : Context} (kept : (r.ctx sd).Continues c) : (r.setCtx sd c).Follows cfg k := by
  obtain ⟨idle, reason⟩ := kept
  cases sd with
  | a => exact
    { ok with
      reasonA := reason ok.reasonA
      used := fun conf => ⟨mt idle.1 (ok.used conf).1, (ok.used conf).2⟩
      spare := fun spare => ⟨idle.2 (ok.spare spare).1, (ok.spare spare).2⟩ }
  | b => exact
    { ok with
      reasonB := reason ok.reasonB
      used := fun conf => ⟨(ok.used conf).1, idle.trans (ok.used conf).2⟩
      spare := fun spare => ⟨(ok.spare spare).1, idle.2 (ok.spare spare).2.1, (ok.spare spare).2.2⟩ }

/-- The reports of a remote are not the law's (R81, R93). -/
theorem withReports (ok : r.Follows cfg k) (h : Option (BitVec 2)) (rad : Option Radiator) :
    ({ r with headroom := h, radiator := rad } : Remote).Follows cfg k := { ok with }

/-- A feed side moves in a RING alone (R84). -/
theorem withFeed (ok : r.Follows cfg k) {sd : Side} (ring : cfg.form = .ring) : ({ r with feed := sd } : Remote).Follows cfg k :=
  { ok with feed := fun other => absurd ring other }

/-- Only a configured remote is put in service (R85). -/
theorem withService (ok : r.Follows cfg k) {b : Bool} (spare : cfg.configured k = false → b = false) :
    ({ r with inService := b } : Remote).Follows cfg k :=
  { ok with spare := fun h => ⟨(ok.spare h).1, (ok.spare h).2.1, spare h⟩ }

/-- The law reads form and remote count alone. -/
theorem of_shape (ok : r.Follows cfg k) {cfg' : GroupConfig} (form : cfg'.form = cfg.form) (remotes : cfg'.remotes = cfg.remotes) :
    r.Follows cfg' k := by
  have conf : cfg'.configured k = cfg.configured k := by rw [GroupConfig.configured, GroupConfig.configured, form, remotes]
  exact ⟨ok.reasonA, ok.reasonB, form ▸ ok.feed, by rw [conf, form]; exact ok.used, by rw [conf]; exact ok.spare⟩

/-- A remote just set up (R25). -/
theorem setUp (cfg : GroupConfig) (k : Pos) : (Remote.setUp cfg k).Follows cfg k := by
  have new : Context.new.reasonOk := Context.reasonOk_new
  have idle : Context.idle.reasonOk := ⟨fun some => (nomatch some), fun wait => (nomatch wait)⟩
  cases conf : cfg.configured k with
  | false =>
    simp only [Remote.setUp, conf, Bool.false_and, Bool.false_eq_true, if_false]
    exact ⟨idle, idle, fun _ => rfl, fun h => (nomatch conf.symm.trans h), fun _ => ⟨rfl, rfl, rfl⟩⟩
  | true =>
    have other : ∀ {p}, cfg.configured k = false → p := fun h => (nomatch conf.symm.trans h)
    by_cases ring : cfg.form = .ring
    · simp only [Remote.setUp, conf, ring, Bool.true_and, beq_self_eq_true, if_true]
      exact ⟨new, new, fun _ => rfl, fun _ => ⟨by decide, fun h => (nomatch h), fun h => absurd ring h⟩, other⟩
    · simp only [Remote.setUp, conf, Bool.true_and, beq_iff_eq, ring, if_true, if_false]
      exact ⟨new, idle, fun _ => rfl, fun _ => ⟨by decide, fun _ => ring, fun _ => rfl⟩, other⟩

end Remote.Follows

/-! ### The span interface's tables -/

/-- Every remote agrees with the configuration of its group. -/
def RemotesFollow (lal : Table Group 8) (t : Table (Table Remote 6) 8) : Prop :=
  ∀ (g : GroupId) (k : Pos), ((t.get g).get k).Follows (configOf lal g) k

/-- The law as the span interface sees it. -/
def Spans.Follow (lal : Table Group 8) (v : Spans) : Prop := RemotesFollow lal v.remotes

namespace Spans.Follow
variable {lal : Table Group 8} {v : Spans} {g : GroupId} {k : Pos} {sd : Side}

theorem editRemote (ok : v.Follow lal) {f : Remote → Remote} (kept : (f (v.remote g k)).Follows (configOf lal g) k) :
    (v.editRemote g k f).Follow lal := by
  intro h j
  simp only [Spans.editRemote, Table.get_edit]
  split
  · next same =>
    subst same
    rw [Table.get_edit]
    split
    · next same => subst same; exact kept
    · exact ok g j
  · exact ok h j

theorem setCtx (ok : v.Follow lal) {c : Context} (kept : (v.ctx g k sd).Continues c) : (v.setCtx g k sd c).Follow lal :=
  ok.editRemote ((ok g k).setCtx kept)

theorem toWaiting (ok : v.Follow lal) (busy : (v.ctx g k sd).state ≠ .idle) (why : WaitReason) :
    (v.toWaiting g k sd why).Follow lal :=
  setCtx ok (.of_busy busy (.inl rfl) ⟨fun _ => rfl, fun _ => rfl⟩)

/-- The law does not read the ports. -/
theorem withPorts (ok : v.Follow lal) (t : Table SpanPort 8) : ({ v with ports := t } : Spans).Follow lal := ok

theorem silence (ok : v.Follow lal) (k : Pos) : (Spans.silence g sd v k).Follow lal := by
  unfold Spans.silence
  split
  · next tracking => exact ok.toWaiting (by rw [tracking]; decide) _
  · exact ok

/-- A law of the interface that every member of a list keeps is kept by the list. -/
theorem foldl {α : Type} {f : Spans → α → Spans} (ok : v.Follow lal) (kept : ∀ w : Spans, w.Follow lal → ∀ x, (f w x).Follow lal)
    (xs : List α) : (xs.foldl f v).Follow lal :=
  List.foldlRecOn xs f ok fun w hw x _ => kept w hw x

theorem movePort (ok : v.Follow lal) (lal' : Table Group 8) (p : SpanId) (vd : SpanVerdict) : (v.movePort lal' p vd).Follow lal := by
  have moved : (v.linkMoved p vd).Follow lal := ok
  rw [Spans.movePort_eq]
  split
  · cases servedBy lal' p with
    | none => exact moved
    | some x => exact moved.foldl (fun w hw k => hw.silence k) _
  · exact moved

/-! ### Sections -/

theorem takeReports (ok : v.Follow lal) (h : BitVec 2) (rad : Radiator) : (v.takeReports g k sd h rad).Follow lal := by
  have taken : (v.editRemote g k fun x => { x with headroom := some h, radiator := some rad }).Follow lal :=
    ok.editRemote ((ok g k).withReports (some h) (some rad))
  unfold Spans.takeReports
  dsimp only
  split
  · exact ok
  · split <;> exact taken

theorem windowTest (ok : v.Follow lal) (h : SectionHeader) (rad : Radiator) (off : Int) (blocks : Table LaneBlock 32) :
    (v.windowTest g k sd h rad off blocks).Follow lal := by
  have moved : ∀ {c : Context}, c.state = (v.ctx g k sd).state → c.reason = (v.ctx g k sd).reason → (v.setCtx g k sd c).Follow lal :=
    fun state reason => ok.setCtx (.of_same state reason)
  unfold Spans.windowTest
  dsimp only
  split
  · refine takeReports ?_ h.headroom rad
    exact moved (c := { v.ctx g k sd with
      expCount := h.count + 1, expEcho := h.echo + 1, missRun := 0, accepted := bump (v.ctx g k sd).accepted }) rfl rfl
  · split <;> exact moved rfl rfl

theorem consult (ok : v.Follow lal) (h : SectionHeader) (rad : Radiator) (blocks : Table LaneBlock 32) :
    (v.consult g k sd h rad blocks).Follow lal := by
  unfold Spans.consult
  dsimp only
  split
  · exact ok
  · exact ok.setCtx (.of_same rfl rfl)
  · next waiting _ =>
    have begun := ok.setCtx (g := g) (k := k) (sd := sd)
      (c := { v.ctx g k sd with state := .tracking, reason := none, expCount := h.count, expEcho := h.echo })
      (.of_busy (by rw [waiting]; decide) (.inr rfl) ⟨fun none => (nomatch none), fun track => (nomatch track)⟩)
    refine windowTest ?_ h rad 0 blocks
    exact begun
  · refine windowTest ?_ h rad 0 blocks
    split <;> exact setCtx ok (.of_same rfl rfl)
  · next tracking _ =>
    split
    · exact ok.windowTest h rad _ blocks
    · have counted := ok.setCtx (g := g) (k := k) (sd := sd)
        (c := { v.ctx g k sd with orderFaults := bump (v.ctx g k sd).orderFaults }) (.of_same rfl rfl)
      refine counted.toWaiting ?_ .order
      rw [Spans.ctx_setCtx, if_pos ⟨rfl, rfl, rfl⟩, tracking]
      decide

theorem examine (ok : v.Follow lal) (lal' : Table Group 8) (p : SpanId) (bs : List Byte) :
    (Spans.examine lal' p g sd v bs).Follow lal := by
  unfold Spans.examine
  split
  · exact ok
  · dsimp only
    split
    · exact ok.consult _ _ _
    · exact ok

theorem frame (ok : v.Follow lal) (lal' : Table Group 8) (p : SpanId) (bs : List Byte) : (v.frame lal' p g sd bs).Follow lal := by
  unfold Spans.frame
  extract_lets good counted w
  have ready : w.Follow lal := (ok.withPorts _).movePort _ _ _
  split
  · exact ready.foldl (fun w hw bs => hw.examine lal' p bs) _
  · exact ready

/-! ### The slot event -/

theorem missSlots (ok : v.Follow lal) (lal' : Table Group 8) : (v.missSlots lal').Follow lal := by
  refine foldl ok (fun w hw p => ?_) _
  unfold Spans.missPort
  split
  · dsimp only
    split
    · exact hw
    · exact ((hw.withPorts _).movePort lal' p .bad).withPorts _
  · exact hw

theorem countMiss (ok : v.Follow lal) (cfg : GroupConfig) (h : FrameNo) (tracking : (v.ctx g k sd).state = .tracking) :
    (v.countMiss cfg h g k sd).Follow lal := by
  have state : ((v.ctx g k sd).miss h).state = (v.ctx g k sd).state := by unfold Context.miss; split <;> rfl
  have reason : ((v.ctx g k sd).miss h).reason = (v.ctx g k sd).reason := by unfold Context.miss; split <;> rfl
  have counted := ok.setCtx (.of_same state reason)
  unfold Spans.countMiss
  dsimp only
  split
  · refine counted.toWaiting ?_ .silent
    rw [Spans.ctx_setCtx, if_pos ⟨rfl, rfl, rfl⟩, state, tracking]
    decide
  · exact counted

theorem closeGroup (ok : v.Follow lal) (h : FrameNo) (g : GroupId) : (v.closeGroup lal h g).Follow lal := by
  unfold Spans.closeGroup
  dsimp only
  split
  · exact ok
  · refine foldl (foldl (foldl ok ?_ _) ?_ _) ?_ _
    · intro w hw key
      unfold Spans.closeContext
      split
      · next missed => exact hw.countMiss _ h missed.1
      · exact hw
    · intro w hw k
      unfold Spans.closeFeed
      dsimp only
      split
      · next moves => exact editRemote hw ((hw g k).withFeed moves.1)
      · exact hw
    · exact fun w hw k => hw.editRemote ((hw g k).withService fun spare => by rw [spare]; rfl)

theorem close (ok : v.Follow lal) (h : FrameNo) : (v.close lal h).Follow lal := foldl ok (fun _ hw g => hw.closeGroup h g) _

/-! ### SPRST -/

theorem resetPort (ok : v.Follow lal) (p : SpanId) : (v.resetPort p g sd).Follow lal := by
  have context : ∀ w : Spans, w.Follow lal → ∀ k, (Spans.resetContext g sd w k).Follow lal := by
    intro w hw k
    unfold Spans.resetContext
    dsimp only
    split
    · exact hw
    · next busy =>
      have renewed := hw.setCtx (c := .new) (.of_busy busy (.inl rfl) Context.reasonOk_new)
      split <;> exact renewed
  have reports : ∀ w : Spans, w.Follow lal → ∀ k, (Spans.dropReports g sd w k).Follow lal := by
    intro w hw k
    refine hw.editRemote ?_
    split
    · exact (hw g k).withReports none none
    · exact hw g k
  unfold Spans.resetPort
  refine foldl (foldl ?_ context _) reports _
  dsimp only
  split <;> exact ok

end Spans.Follow

/-! ### The hub -/

theorem contextsOk_iff (s : State) : s.contextsOk ↔ s.spans.Follow s.lal := by
  constructor
  · intro law g k
    obtain ⟨reasonA, reasonB, feed, used, spare⟩ := law g k
    exact ⟨reasonA, reasonB, feed, used, spare⟩
  · intro follow g k
    obtain ⟨reasonA, reasonB, feed, used, spare⟩ := follow g k
    exact ⟨reasonA, reasonB, feed, used, spare⟩

/-- The hub's remotes agree with its groups' configurations. -/
abbrev State.Follows (s : State) : Prop := s.spans.Follow s.lal

namespace State.Follows
variable {s t : State}

theorem of_frame (ok : s.Follows) (config : ∀ g, configOf t.lal g = configOf s.lal g) (remotes : t.sif.remotes = s.sif.remotes) :
    t.Follows := by
  intro g k
  have own := ok g k
  rw [← config g] at own
  simp only [State.spans, remotes] at own ⊢
  exact own

/-- What leaves the configurations and the span side alone. -/
theorem of_limiterView (ok : s.Follows) (config : t.limiterView = s.limiterView) (sif : t.sif = s.sif) : t.Follows :=
  ok.of_frame (congrFun (congrArg LimiterView.config config)) (congrArg SpanSide.remotes sif)

/-- What leaves the groups and the span side alone. -/
theorem of_places (ok : s.Follows) (places : t.places = s.places) (sif : t.sif = s.sif) : t.Follows :=
  ok.of_frame (fun g => congrArg (fun x : Places => configOf x.lal g) places) (congrArg SpanSide.remotes sif)

/-- The span interface's work keeps the law where it keeps its own. -/
theorem withSpans {v : Spans} (ok : v.Follow s.lal) : (s.withSpans v).Follows := ok

/-- Remotes set up for the configurations that stand (R25, R27, R95). -/
theorem of_setUp (remotes : ∀ g, t.sif.remotes.get g = setUpRemotes (configOf t.lal g)) : t.Follows := by
  intro g k
  have own := Remote.Follows.setUp (configOf t.lal g) k
  rw [← Table.get_make (Remote.setUp (configOf t.lal g)) k] at own
  simp only [State.spans, remotes g]
  exact own

end State.Follows

/-! ### Requests -/

/-- Form and remote count stand (R26). -/
theorem tuned_follows {s : State} (ok : s.Follows) {g : GroupId} {cfg : GroupConfig} (form : cfg.form = (configOf s.lal g).form)
    (remotes : cfg.remotes = (configOf s.lal g).remotes) : (s.tuned g cfg).Follows := by
  intro h k
  have own := ok h k
  rw [configOf_tuned]
  split
  · next same => subst same; exact own.of_shape form remotes
  · exact own

/-- The group's remotes are set up anew (R25). -/
theorem setUpAnew_follows {s : State} (ok : s.Follows) (g : GroupId) (cfg : GroupConfig) : (s.setUpAnew g cfg).Follows := by
  intro h k
  rw [setUpAnew_eq]
  simp only [State.spans, configOf_tuned, Table.get_put]
  split
  · have own := Remote.Follows.setUp cfg k
    rwa [← Table.get_make (Remote.setUp cfg) k] at own
  · exact ok h k

theorem grpset_follows (a : GrpsetArgs) {s : State} (ok : s.Follows) : (grpset a s).state.Follows := by
  by_cases unnamed : 8 ≤ a.group ∨ codeForm a.form = none
  · rw [grpset_of_unnamed unnamed]; exact ok
  · obtain ⟨near, form⟩ := not_or.1 unnamed
    obtain ⟨form, named⟩ := Option.ne_none_iff_exists'.1 form
    let g : GroupId := ⟨a.group, not_le.1 near⟩
    cases checks : grpsetRefusal s g a form with
    | some st => rw [grpset_of_refusal (g := g) rfl named checks]; exact ok
    | none =>
      rw [grpset_of_pass (g := g) rfl named checks, okWith]
      dsimp only
      split
      · exact setUpAnew_follows ok g _
      · next same =>
        obtain ⟨form, remotes⟩ := not_or.1 same
        exact tuned_follows ok (not_not.1 form) (not_not.1 remotes)

theorem sprst_follows (n : Nat) {s : State} (ok : s.Follows) : (sprst n s).state.Follows := by
  unfold sprst
  split
  · exact ok
  · next p _ =>
    split
    · exact ok
    · exact .withSpans (ok.resetPort p)

theorem requestAct_follows (v : State → State) (r : Request) {s : State} (ok : s.Follows) : (requestAct v r s).state.Follows := by
  cases r with
  | rdrec sel part => exact (rdrecOf_state (v s) sel part s).symm ▸ ok
  | carset a => exact ok.of_limiterView (carset_limiterView a s) (carset_sif s a)
  | caron n => exact ok.of_limiterView (caron_limiterView n s) (caron_sif n s)
  | caroff n => exact ok.of_limiterView (caroff_limiterView n s) (caroff_sif n s)
  | carclr n => exact ok.of_limiterView (carclr_limiterView n s) (carclr_sif n s)
  | trim n g x => exact ok.of_limiterView (trim_limiterView n g x s) (trim_sif n s g x)
  | grpset a => exact grpset_follows a ok
  | sprst n => exact sprst_follows n ok
  | incset n => exact ok.of_limiterView (changeLevels_limiterView _ _ s) (changeLevels_sif _ _ s)
  | incclr => exact ok.of_limiterView (incclr_limiterView s) (incclr_sif s)
  | profset a => exact ok.of_limiterView (profset_limiterView a s) (profset_sif s a)
  | annc a => exact ok.of_places (annc_places a s) (annc_sif s a)
  | ancan n => exact ok.of_places (ancan_places n s) (ancan_sif n s)
  | voxset a => exact ok
  | pgopen n => exact ok.of_places (pgopen_places n s) (pgopen_sif n s)
  | pgdata off bs => exact ok.of_places (pgdata_places off bs s) (pgdata_sif off s bs)
  | pgcommit => exact ok.of_places (pgcommit_places s) (pgcommit_sif s)
  | blkerase n => exact ok.of_places (blkerase_places n s) (blkerase_sif n s)
  | blkguard n bar => exact ok.of_places (blkguard_places n bar s) (blkguard_sif n s bar)
  | msgdef a => exact ok.of_places (msgdef_places a s) (msgdef_sif s a)
  | msgclr n => exact ok.of_places (msgclr_places n s) (msgclr_sif n s)
  | trksel n => exact ok.of_places (trksel_places n s) (trksel_sif n s)
  | timset limit x => exact ok
  | save => exact ok.of_places (save_places s) (save_sif s)
  | restart n => exact ok.of_places (restart_places n s) (restart_sif n s)
  | causeclr => exact ok

/-! ### The works of a slot -/

/-- The span side's work, whose close reads the lane tables of the slot (R71, R82 to R85). -/
theorem spanWork_follows {i : MixInput} {s : State} (lanes : s.lal = i.lanes) (ok : s.Follows) : (spanWork i s).Follows := by
  have missed : (s.withSpans (s.spans.missSlots s.lal)).Follows := .withSpans (ok.missSlots s.lal)
  unfold spanWork closeSlot
  dsimp only
  split
  · rw [← lanes]
    exact Spans.Follow.close missed _
  · exact missed

/-- The works of a slot, in any order, leave the lane tables and keep the law. -/
theorem works_follows (o : WorkOrder) {i : MixInput} {s : State} (lanes : s.lal = i.lanes) (ok : s.Follows) :
    (works o i s).Follows := by
  have mixer : ∀ {t : State}, t.lal = i.lanes ∧ t.Follows → (mixerWork i t).lal = i.lanes ∧ (mixerWork i t).Follows := id
  have players : ∀ {t : State}, t.lal = i.lanes ∧ t.Follows → (playerWork i t).lal = i.lanes ∧ (playerWork i t).Follows := id
  have spans : ∀ {t : State}, t.lal = i.lanes ∧ t.Follows → (spanWork i t).lal = i.lanes ∧ (spanWork i t).Follows :=
    fun ⟨lanes, ok⟩ => ⟨(congrArg Places.lal (spanWork_places i _)).trans lanes, spanWork_follows lanes ok⟩
  have start := And.intro lanes ok
  cases o with
  | mixerSpanPlayers => exact (players (spans (mixer start))).2
  | mixerPlayersSpan => exact (spans (players (mixer start))).2
  | spanMixerPlayers => exact (players (mixer (spans start))).2
  | spanPlayersMixer => exact (mixer (players (spans start))).2
  | playersMixerSpan => exact (spans (mixer (players start))).2
  | playersSpanMixer => exact (mixer (spans (players start))).2

theorem slotWorked_follows (n : FrameNo) (ord : SlotOrder) {s : State} (ok : s.Follows) : (slotWorked n ord s).Follows := by
  have opened : (openSlot n ord s).1.Follows := by
    refine ok.of_frame (fun g => ?_) rfl
    simp only [openSlot, configOf, markLanes, guardStep, Table.get_make]
  exact works_follows ord.works (i := slotInput n s _) rfl opened

/-! ### Events -/

theorem missLimitReached_follows (g : GroupId) (k : Pos) (sd : Side) {s : State} (ok : s.Follows) :
    (missLimitReached g k sd s).Follows := by
  unfold missLimitReached
  dsimp only
  split
  · next due => exact .withSpans (ok.countMiss _ _ due.1)
  · exact ok

theorem spanUplinkFrameArrival_follows (p : SpanId) (bs : List Byte) {s : State} (ok : s.Follows) :
    (spanUplinkFrameArrival p bs s).Follows := by
  unfold spanUplinkFrameArrival
  split
  · exact .withSpans (ok.frame s.lal p bs)
  · exact ok

theorem lineSample_follows (n : FrameNo) (line : Bool) {s : State} (ok : s.Follows) : (lineSample n line s).Follows :=
  ok.of_limiterView (changeLevels_limiterView _ _ s) (changeLevels_sif _ _ s)

/-! ### Resets and start-up -/

theorem resetBlocks_follows (keep : Bool) (causes : CauseRecord) (s : State) : (resetBlocks keep causes s).Follows := by
  refine .of_setUp fun g => ?_
  simp only [resetBlocks, configOf, Table.get_make, Group.empty]

theorem startUp_follows (outcome : SettingsOutcome) (ids : List CarrierId) {s : State} (ok : s.Follows) :
    (startUp outcome ids s).Follows := ok.of_limiterView (startUp_limiterView outcome ids s) rfl

theorem load_follows (s : State) (x : Snapshot) : (s.load x).Follows := by
  refine .of_setUp fun g => ?_
  simp only [State.load, configOf, Table.get_make, Group.empty]

theorem startUpLoading_follows {s : State} (ok : s.Follows) : (startUpLoading s).Follows := by
  unfold startUpLoading
  split
  · exact startUp_follows _ _ ok
  · exact startUp_follows _ _ (load_follows s _)

theorem restartNow_follows (f : RestartForm) (s : State) : (restartNow f s).Follows := by
  cases f with
  | keep => exact startUp_follows _ _ (resetBlocks_follows true _ s)
  | reload => exact startUpLoading_follows (resetBlocks_follows false _ s)

theorem lineReset_follows {s : State} (ok : s.Follows) : (lineReset s).Follows := by
  unfold lineReset
  split
  · exact ok
  · exact resetBlocks_follows false s.mga.causes.lineReset s

theorem leaveReset_follows {s : State} (ok : s.Follows) : (leaveReset s).Follows := by
  unfold leaveReset
  split
  · exact ok
  · exact startUpLoading_follows ok

theorem resetInputRelease_follows {s : State} (ok : s.Follows) : (resetInputRelease s).Follows := by
  unfold resetInputRelease
  split
  · exact leaveReset_follows (s := { s with pins := { s.pins with resetInput := false } }) ok
  · exact ok

theorem suppliesSteady_follows {s : State} (ok : s.Follows) : (suppliesSteady s).Follows := by
  unfold suppliesSteady
  split
  · exact leaveReset_follows (s := { s with pins := { s.pins with powerHold := false } }) ok
  · exact ok

/-! ### The step -/

theorem StepPart.follows {s t : State} (part : StepPart s t) (ok : s.Follows) : t.Follows := by
  cases part with
  | taken rest => exact ok
  | requested v r => exact requestAct_follows v r ok
  | responded p x => exact ok
  | refreshed => exact ok
  | worked n ord => exact slotWorked_follows n ord ok
  | sampled n line => exact lineSample_follows n line ok
  | completed n => exact ok
  | restarted f => exact restartNow_follows f s
  | holdoverExpiry => exact ok.of_places (holdoverExpiry_places s) (holdoverExpiry_sif s)
  | laneGuardExpiry g l => exact ok.of_limiterView (laneGuardExpiry_limiterView g l s) (laneGuardExpiry_sif s g l)
  | overBudget g => exact ok.of_places (overBudget_places g s) (overBudget_sif s g)
  | missLimitReached g k sd => exact missLimitReached_follows g k sd ok
  | hangExpiry g l k => exact ok.of_places (hangExpiry_places g l k s) (hangExpiry_sif s g l k)
  | fadeEnd id => exact ok.of_places (fadeEnd_places id s) (fadeEnd_sif s id)
  | gapEnd id => exact ok.of_places (gapEnd_places id s) (gapEnd_sif s id)
  | liveSpeechLoss id => exact ok.of_places (liveSpeechLoss_places id s) (liveSpeechLoss_sif s id)
  | trunkFrameArrival p bs => exact ok
  | spanUplinkFrameArrival p bs => exact spanUplinkFrameArrival_follows p bs ok
  | storeProgramCompletion r => exact ok.of_places (storeProgramCompletion_places r s) (storeProgramCompletion_sif s r)
  | storeEraseCompletion r => exact ok.of_places (storeEraseCompletion_places r s) (storeEraseCompletion_sif s r)
  | settingsSaveCompletion r => exact ok.of_places (settingsSaveCompletion_places r s) (settingsSaveCompletion_sif s r)
  | powerOn => exact resetBlocks_follows false .poweredOn s
  | lineReset => exact lineReset_follows ok
  | resetInputRelease => exact resetInputRelease_follows ok
  | suppliesSteady => exact suppliesSteady_follows ok

end Sys2Proof.Machine

namespace Sys2Proof.Proofs
open Sys2Proof Sys2Proof.Machine

/-- Settles O57: a remote set up follows its configuration. Nothing takes a context in use to IDLE or back but setting it up anew, which every
change of form or remote count does; a feed side moves in a RING alone, and only a configured remote is put in service. -/
theorem stepKeepsContexts : Obligations.StepKeepsContexts := by
  have kept := keptByStep_of_parts (law := State.Follows) StepPart.follows
  exact fun s t law h => (contextsOk_iff t).2 (kept s t ((contextsOk_iff s).1 law) h)

end Sys2Proof.Proofs
end

section
/-! Works of the span interface that go over the positions of a group: what each makes of its own position decides what all of them make of the
group, in whatever order. -/
namespace Sys2Proof.Table
variable {α : Type} {n : Nat}

theorem put_put (t : Table α n) (i : Fin n) (x y : α) : (t.put i x).put i y = t.put i y := by
  ext j
  simp only [get_put]
  split <;> rfl

theorem put_get (t : Table α n) (i : Fin n) : t.put i (t.get i) = t := by
  ext j
  rw [get_put]
  split
  · next same => rw [same]
  · rfl

end Sys2Proof.Table

namespace Sys2Proof.Machine

/-- What a work makes of one position: its remote, the sides whose sections it withdraws, and the notices it raises. -/
structure PosWork where
  remote : Remote
  gone : Side → Bool
  notices : List Notice

/-- A remote changed, and no more. -/
def PosWork.only (r : Remote) : PosWork := ⟨r, fun _ => false, []⟩

/-- The span interface after a work at one position of a group. -/
def Spans.workAt (v : Spans) (g : GroupId) (k : Pos) (c : PosWork) : Spans :=
  { v with
    remotes := v.remotes.edit g fun t => t.put k c.remote
    window := v.window.map fun x => { x with filed := x.filed.filter fun f => !(f.group == g && f.pos == k && c.gone f.side) }
    out := v.out ++ c.notices }

/-- The span interface after a work at every position of a group. -/
def Spans.workAll (v : Spans) (g : GroupId) (c : Pos → PosWork) : Spans :=
  { v with
    remotes := v.remotes.put g (.make fun k => (c k).remote)
    window := v.window.map fun x => { x with filed := x.filed.filter fun f => !(f.group == g && (c f.pos).gone f.side) }
    out := v.out ++ (List.finRange 6).flatMap fun k => (c k).notices }

section
variable (v : Spans) (g : GroupId) (k : Pos)

/-- Nothing withdrawn. -/
theorem window_filter_true (w : List WindowSlot) {p : Filed → Bool} (all : ∀ f, p f = true) :
    (w.map fun x => { x with filed := x.filed.filter p }) = w := by
  refine List.map_id'' (fun x => ?_) w
  rw [List.filter_eq_self.2 fun f _ => all f]

/-- Sections withdrawn twice over. -/
theorem window_filter_filter (w : List WindowSlot) (p q : Filed → Bool) :
    ((w.map fun x => { x with filed := x.filed.filter p }).map fun x => { x with filed := x.filed.filter q }) =
      w.map fun x => { x with filed := x.filed.filter fun f => p f && q f } := by
  rw [List.map_map]
  refine List.map_congr_left fun x _ => ?_
  simp only [Function.comp, List.filter_filter, Bool.and_comm]

theorem window_filter_congr (w : List WindowSlot) {p q : Filed → Bool} (same : ∀ f, p f = q f) :
    (w.map fun x => { x with filed := x.filed.filter p }) = w.map fun x => { x with filed := x.filed.filter q } := by
  rw [funext same]

/-- The key of a section. -/
theorem Filed.under_iff (f : Filed) (g : GroupId) (k : Pos) (sd : Side) :
    f.under g k sd = true ↔ f.group = g ∧ f.pos = k ∧ f.side = sd := by
  simp only [Filed.under, Bool.and_eq_true, decide_eq_true_eq, and_assoc]

/-- Which sections stay where one key's are withdrawn. -/
theorem Filed.stays_eq (f : Filed) (g : GroupId) (k : Pos) (sd : Side) :
    (!f.under g k sd) = decide ¬(f.group = g ∧ f.pos = k ∧ f.side = sd) := by
  have own : f.under g k sd = decide (f.group = g ∧ f.pos = k ∧ f.side = sd) := by
    rw [Bool.eq_iff_iff, f.under_iff, decide_eq_true_eq]
  exact (congrArg (! ·) own).trans (decide_not ..).symm

theorem Spans.editRemote_eq_workAt (f : Remote → Remote) : v.editRemote g k f = v.workAt g k (.only (f (v.remote g k))) := by
  have window := window_filter_true v.window (p := fun f => !(f.group == g && f.pos == k && false)) fun f => by
    rw [Bool.and_false]; rfl
  simp only [Spans.workAt, PosWork.only, window, List.append_nil]
  rfl

theorem Spans.setCtx_eq_workAt (sd : Side) (c : Context) : v.setCtx g k sd c = v.workAt g k (.only ((v.remote g k).setCtx sd c)) :=
  v.editRemote_eq_workAt g k _

/-- A work that changes nothing. -/
theorem Spans.workAt_idle : v.workAt g k (.only (v.remote g k)) = v := by
  have same : v.remotes.put g ((v.remotes.get g).put k ((v.remotes.get g).get k)) = v.remotes := by
    rw [Table.put_get, Table.put_get]
  refine (v.editRemote_eq_workAt g k id).symm.trans ?_
  exact congrArg (fun t => { v with remotes := t }) same

theorem Spans.toWaiting_eq_workAt (sd : Side) (why : WaitReason) :
    v.toWaiting g k sd why = v.workAt g k
      ⟨(v.remote g k).setCtx sd { v.ctx g k sd with state := .waiting, reason := some why, missRun := 0 },
        fun x => decide (x = sd), [.remoteState g k sd .waiting (some why)]⟩ := rfl

@[simp] theorem Spans.remote_workAt_self (c : PosWork) : (v.workAt g k c).remote g k = c.remote := by
  simp [Spans.remote, Spans.workAt]

theorem Spans.remote_workAt_ne {k j : Pos} (ne : k ≠ j) (c : PosWork) : (v.workAt g k c).remote g j = v.remote g j := by
  simp [Spans.remote, Spans.workAt, ne]

/-- Two works at one position. -/
theorem Spans.workAt_workAt (c d : PosWork) :
    (v.workAt g k c).workAt g k d = v.workAt g k ⟨d.remote, fun sd => c.gone sd || d.gone sd, c.notices ++ d.notices⟩ := by
  have window := window_filter_filter v.window (fun f => !(f.group == g && f.pos == k && c.gone f.side))
    (fun f => !(f.group == g && f.pos == k && d.gone f.side))
  simp only [Spans.workAt, Table.edit, Table.get_put_self, Table.put_put, window, List.append_assoc, Bool.and_or_distrib_left, Bool.not_or]

@[simp] theorem Spans.remote_workAll (c : Pos → PosWork) : (v.workAll g c).remote g k = (c k).remote := by
  simp [Spans.remote, Spans.workAll]

end

/-- The works at some positions of a group. -/
theorem foldl_workAt_on {step : Spans → Pos → Spans} {change : Spans → Pos → PosWork} {g : GroupId}
    (works : ∀ v k, step v k = v.workAt g k (change v k))
    (apart : ∀ v k c j, k ≠ j → change (v.workAt g k c) j = change v j) (ks : List Pos) : ∀ v : Spans, ks.Nodup →
    ks.foldl step v =
      { v with
        remotes := v.remotes.edit g fun t => .make fun k => if k ∈ ks then (change v k).remote else t.get k
        window := v.window.map fun x =>
          { x with filed := x.filed.filter fun f => !(f.group == g && decide (f.pos ∈ ks) && (change v f.pos).gone f.side) }
        out := v.out ++ ks.flatMap fun k => (change v k).notices } := by
  induction ks with
  | nil =>
    intro v _
    have window := window_filter_true v.window (p := fun f => !(f.group == g && false && (change v f.pos).gone f.side)) fun f => by
      rw [Bool.and_false, Bool.false_and, Bool.not_false]
    have remotes : (v.remotes.edit g fun t => .make fun k => t.get k) = v.remotes := by
      ext h j
      rw [Table.get_edit]
      split
      · next same => rw [Table.get_make, same]
      · rfl
    simp only [List.foldl_nil, List.not_mem_nil, if_false, remotes, decide_false, window, List.flatMap_nil, List.append_nil]
  | cons k ks ih =>
    intro v nodup
    obtain ⟨fresh, nodup⟩ := List.nodup_cons.1 nodup
    have same : ∀ j ∈ ks, change (v.workAt g k (change v k)) j = change v j :=
      fun j hj => apart v k _ j fun e => fresh (e ▸ hj)
    rw [List.foldl_cons, works, ih _ nodup]
    generalize change (v.workAt g k (change v k)) = next at same ⊢
    have remotes : ∀ t : Table Remote 6, (Table.make fun j => if j ∈ ks then (next j).remote else (t.put k (change v k).remote).get j) =
        Table.make fun j => if j ∈ k :: ks then (change v j).remote else t.get j := by
      intro t
      ext j
      obtain rfl | ne := eq_or_ne j k
      · simp [fresh]
      · by_cases hj : j ∈ ks
        · simp [hj, same j hj]
        · simp [hj, ne, ne.symm]
    have window : ∀ f : Filed, (!(f.group == g && f.pos == k && (change v k).gone f.side) &&
          !(f.group == g && decide (f.pos ∈ ks) && (next f.pos).gone f.side)) =
        !(f.group == g && decide (f.pos ∈ k :: ks) && (change v f.pos).gone f.side) := by
      intro f
      obtain rfl | ne := eq_or_ne f.pos k
      · simp [fresh]
      · by_cases hf : f.pos ∈ ks
        · simp [hf, ne, same _ hf]
        · simp [hf, ne]
    have notices : (ks.flatMap fun j => (next j).notices) = ks.flatMap fun j => (change v j).notices :=
      List.flatMap_congr fun j hj => by rw [same j hj]
    simp only [Spans.workAt, Table.edit, Table.get_put_self, Table.put_put, remotes, window_filter_filter, window, notices,
      List.append_assoc, List.flatMap_cons]

/-- The works at every position of a group, where none reads what another changes. -/
theorem foldl_workAt {step : Spans → Pos → Spans} {change : Spans → Pos → PosWork} {g : GroupId}
    (works : ∀ v k, step v k = v.workAt g k (change v k))
    (apart : ∀ v k c j, k ≠ j → change (v.workAt g k c) j = change v j) (v : Spans) :
    (List.finRange 6).foldl step v = v.workAll g (change v) := by
  rw [foldl_workAt_on works apart _ v (List.nodup_finRange 6)]
  simp only [List.mem_finRange, if_true, decide_true, Bool.and_true]
  rfl

/-- The works at every position, each reading its own remote alone. -/
theorem foldl_remoteWork {step : Spans → Pos → Spans} {change : Pos → Remote → PosWork} {g : GroupId}
    (works : ∀ v k, step v k = v.workAt g k (change k (v.remote g k))) (v : Spans) :
    (List.finRange 6).foldl step v = v.workAll g fun k => change k (v.remote g k) :=
  foldl_workAt works (fun v _ c j ne => by rw [v.remote_workAt_ne g ne c]) v

/-- Works that change remotes alone. -/
theorem Spans.workAll_only (v : Spans) (g : GroupId) (f : Pos → Remote) :
    v.workAll g (fun k => .only (f k)) = { v with remotes := v.remotes.put g (.make f) } := by
  have window := window_filter_true v.window (p := fun f => !(f.group == g && false)) fun f => by rw [Bool.and_false]; rfl
  have silent : ((List.finRange 6).flatMap fun _ => ([] : List Notice)) = [] := List.flatMap_eq_nil_iff.2 fun _ _ => rfl
  simp only [Spans.workAll, PosWork.only, window, silent, List.append_nil]

/-- Which sections stay where those of a group for which `p` holds are withdrawn. -/
theorem Filed.group_stays_eq (f : Filed) (g : GroupId) (p : Prop) [Decidable p] : (!(f.group == g && decide p)) = decide ¬(f.group = g ∧ p) := by
  by_cases own : f.group = g
  · simp [own]
  · simp [own]

/-- What is said of each member that has something to say. -/
theorem flatMap_guard {α β : Type} (p : α → Prop) [DecidablePred p] (f : α → β) (xs : List α) :
    (xs.flatMap fun x => if p x then [f x] else []) = (xs.filter fun x => p x).map f := by
  induction xs with
  | nil => rfl
  | cons x xs ih =>
    rw [List.flatMap_cons, ih]
    by_cases h : p x
    · simp [h]
    · simp [h]

end Sys2Proof.Machine
end

section
/-! SPRST (R93), the contexts of a port that goes DOWN (R73), and the frames received on a span port (R69, R70, R72). -/
namespace Sys2Proof.Machine

/-! ### The contexts of a port that goes DOWN (R73) -/

/-- A TRACKING context silenced. -/
def Remote.silenced (r : Remote) (g : GroupId) (sd : Side) (k : Pos) : PosWork :=
  if (r.ctx sd).state = .tracking then
    ⟨r.setCtx sd { r.ctx sd with state := .waiting, reason := some .silent, missRun := 0 }, fun x => decide (x = sd),
      [.remoteState g k sd .waiting (some .silent)]⟩
  else .only r

theorem Spans.silence_eq_workAt (g : GroupId) (sd : Side) (v : Spans) (k : Pos) :
    Spans.silence g sd v k = v.workAt g k ((v.remote g k).silenced g sd k) := by
  unfold Spans.silence Remote.silenced Spans.ctx
  split
  · exact v.toWaiting_eq_workAt g k sd .silent
  · exact (v.workAt_idle g k).symm

/-- Every TRACKING context of a side silenced. -/
theorem Spans.foldl_silence (g : GroupId) (sd : Side) (v : Spans) :
    (List.finRange 6).foldl (Spans.silence g sd) v = v.workAll g fun k => (v.remote g k).silenced g sd k :=
  foldl_remoteWork (change := fun k r => r.silenced g sd k) (Spans.silence_eq_workAt g sd) v

section Silenced
variable {r : Remote} {g : GroupId} {sd : Side} {k : Pos}

theorem Remote.silenced_of_tracking (tracking : (r.ctx sd).state = .tracking) :
    (r.silenced g sd k).remote = r.setCtx sd { r.ctx sd with state := .waiting, reason := some .silent, missRun := 0 } := by
  rw [Remote.silenced, if_pos tracking]

theorem Remote.silenced_of_other (other : (r.ctx sd).state ≠ .tracking) : (r.silenced g sd k).remote = r := by
  rw [Remote.silenced, if_neg other]; rfl

theorem Remote.silenced_gone (x : Side) : (r.silenced g sd k).gone x = decide (x = sd ∧ (r.ctx sd).state = .tracking) := by
  unfold Remote.silenced
  split
  · next tracking => simp [tracking]
  · next other => simp [other, PosWork.only]

theorem Remote.silenced_notices : (r.silenced g sd k).notices =
    if (r.ctx sd).state = .tracking then [.remoteState g k sd .waiting (some .silent)] else [] := by
  unfold Remote.silenced
  split <;> rfl

end Silenced

/-! ### SPRST (R93) -/

/-- A context on a port that is reset. -/
def Remote.renewed (r : Remote) (g : GroupId) (sd : Side) (k : Pos) : PosWork :=
  if (r.ctx sd).state = .idle then .only r
  else
    ⟨r.setCtx sd .new, fun x => decide (x = sd),
      if (r.ctx sd).state = .waiting ∧ (r.ctx sd).reason = some .new then [] else [.remoteState g k sd .waiting (some .new)]⟩

/-- The reports of a remote fed from a port that is reset. -/
def Remote.unreported (r : Remote) (sd : Side) : Remote := if r.feed = sd then { r with headroom := none, radiator := none } else r

theorem Spans.resetContext_eq_workAt (g : GroupId) (sd : Side) (v : Spans) (k : Pos) :
    Spans.resetContext g sd v k = v.workAt g k ((v.remote g k).renewed g sd k) := by
  unfold Spans.resetContext Remote.renewed Spans.ctx
  dsimp only
  split
  · exact (v.workAt_idle g k).symm
  · exact Spans.said_eq _ _ _

theorem Spans.foldl_resetContext (g : GroupId) (sd : Side) (v : Spans) :
    (List.finRange 6).foldl (Spans.resetContext g sd) v = v.workAll g fun k => (v.remote g k).renewed g sd k :=
  foldl_remoteWork (change := fun k r => r.renewed g sd k) (Spans.resetContext_eq_workAt g sd) v

theorem Spans.foldl_dropReports (g : GroupId) (sd : Side) (v : Spans) :
    (List.finRange 6).foldl (Spans.dropReports g sd) v =
      { v with remotes := v.remotes.put g (.make fun k => (v.remote g k).unreported sd) } :=
  (foldl_remoteWork (change := fun _ r => .only (r.unreported sd)) (fun v k => v.editRemote_eq_workAt g k _) v).trans
    (v.workAll_only g _)

/-- What SPRST leaves of the span interface: the port, the contexts one after the other, then the reports. -/
theorem Spans.resetPort_eq (v : Spans) (p : SpanId) (g : GroupId) (sd : Side) :
    v.resetPort p g sd =
      let w := ({ v with
        ports := v.ports.put p { SpanPort.default with quiet := 8 }
        out := v.out ++ if (v.ports.get p).link = .down then [] else [.spanState p .down] } : Spans).workAll g
          fun k => (v.remote g k).renewed g sd k
      { w with remotes := v.remotes.put g (.make fun k => ((v.remote g k).renewed g sd k).remote.unreported sd) } := by
  unfold Spans.resetPort
  dsimp only
  rw [Spans.said_eq, Spans.foldl_resetContext, Spans.foldl_dropReports]
  simp only [Spans.remote_workAll]
  simp only [Spans.workAll, Table.put_put]
  rfl

section Renewed
variable {r : Remote} {g : GroupId} {sd : Side} {k : Pos}

theorem Remote.renewed_of_idle (idle : (r.ctx sd).state = .idle) : (r.renewed g sd k).remote = r := by
  rw [Remote.renewed, if_pos idle]; rfl

theorem Remote.renewed_of_busy (busy : (r.ctx sd).state ≠ .idle) : (r.renewed g sd k).remote = r.setCtx sd .new := by
  rw [Remote.renewed, if_neg busy]

theorem Remote.renewed_gone (x : Side) : (r.renewed g sd k).gone x = decide (x = sd ∧ (r.ctx sd).state ≠ .idle) := by
  unfold Remote.renewed
  split
  · next idle => simp [idle, PosWork.only]
  · next busy => simp [busy]

theorem Remote.renewed_notices : (r.renewed g sd k).notices =
    if (r.ctx sd).state ≠ .idle ∧ ¬((r.ctx sd).state = .waiting ∧ (r.ctx sd).reason = some .new) then
      [.remoteState g k sd .waiting (some .new)] else [] := by
  unfold Remote.renewed
  split
  · next idle => rw [if_neg fun other => other.1 idle]; rfl
  · next busy =>
    split
    · next new => exact (if_neg fun other => other.2 new).symm
    · next other => exact (if_pos ⟨busy, other⟩).symm

end Renewed

@[simp] theorem Remote.setCtx_feed (r : Remote) (sd : Side) (c : Context) : (r.setCtx sd c).feed = r.feed := by cases sd <;> rfl
@[simp] theorem Remote.setCtx_inService (r : Remote) (sd : Side) (c : Context) : (r.setCtx sd c).inService = r.inService := by
  cases sd <;> rfl
@[simp] theorem Remote.setCtx_headroom (r : Remote) (sd : Side) (c : Context) : (r.setCtx sd c).headroom = r.headroom := by
  cases sd <;> rfl
@[simp] theorem Remote.setCtx_radiator (r : Remote) (sd : Side) (c : Context) : (r.setCtx sd c).radiator = r.radiator := by
  cases sd <;> rfl

/-- What SPRST makes of a remote's reports. -/
theorem Remote.unreported_spec (r : Remote) (sd : Side) :
    (r.unreported sd).feed = r.feed ∧ (r.unreported sd).inService = r.inService ∧ (∀ x, (r.unreported sd).ctx x = r.ctx x) ∧
    (r.feed = sd → (r.unreported sd).headroom = none ∧ (r.unreported sd).radiator = none) ∧
    (r.feed ≠ sd → (r.unreported sd).headroom = r.headroom ∧ (r.unreported sd).radiator = r.radiator) := by
  unfold Remote.unreported
  split
  · next fed => exact ⟨rfl, rfl, fun x => by cases x <;> rfl, fun _ => ⟨rfl, rfl⟩, fun other => absurd fed other⟩
  · next other => exact ⟨rfl, rfl, fun _ => rfl, fun fed => absurd fed other, fun _ => ⟨rfl, rfl⟩⟩

/-- What SPRST makes of a remote: one context new unless IDLE, reports absent where it is fed from the port. -/
theorem Remote.reset_spec (r : Remote) (g : GroupId) (sd : Side) (k : Pos) :
    let r' := (r.renewed g sd k).remote.unreported sd
    r'.feed = r.feed ∧ r'.inService = r.inService ∧ r'.ctx (otherSide sd) = r.ctx (otherSide sd) ∧
    (r.feed = sd → r'.headroom = none ∧ r'.radiator = none) ∧
    (r.feed ≠ sd → r'.headroom = r.headroom ∧ r'.radiator = r.radiator) ∧
    ((r.ctx sd).state = .idle → r'.ctx sd = r.ctx sd) ∧ ((r.ctx sd).state ≠ .idle → r'.ctx sd = .new) := by
  obtain ⟨feed, service, contexts, fed, other⟩ := (r.renewed g sd k).remote.unreported_spec sd
  dsimp only
  rw [feed, service, contexts, contexts]
  by_cases idle : (r.ctx sd).state = .idle
  · rw [Remote.renewed_of_idle idle] at fed other ⊢
    exact ⟨rfl, rfl, rfl, fed, other, fun _ => rfl, fun busy => absurd idle busy⟩
  · rw [Remote.renewed_of_busy idle] at fed other ⊢
    simp only [Remote.setCtx_feed, Remote.setCtx_headroom, Remote.setCtx_radiator] at fed other
    exact ⟨r.setCtx_feed _ _, r.setCtx_inService _ _, r.ctx_setCtx_other _ _, fed, other, fun still => absurd still idle,
      fun _ => r.ctx_setCtx_self _ _⟩

theorem sprst_of_far {n : Nat} (far : 8 ≤ n) (s : State) : sprst n s = refuse .range s := by
  simp only [sprst, index_eq_none far]

theorem sprst_of_unserved {s : State} {q : SpanId} (unserved : servedBy s.lal q = none) : sprst q.val s = refuse .state s := by
  simp only [sprst, index_val, unserved]

theorem sprst_of_served {s : State} {q : SpanId} {g : GroupId} {sd : Side} (served : servedBy s.lal q = some (g, sd)) :
    sprst q.val s = okWith (s.withSpans (s.spans.resetPort q g sd)) [] := by
  simp only [sprst, index_val, served]

/-! ### Frames received (R69, R70, R72) -/

section Move
variable {y : SpanPort}

theorem SpanPort.move_down_good (link : y.link = .down) : y.move .good = { y with link := .aligning, goodRun := 1 } := by
  simp only [SpanPort.move, link]

theorem SpanPort.move_down_bad (link : y.link = .down) : y.move .bad = y := by simp only [SpanPort.move, link]

theorem SpanPort.move_aligning_good (link : y.link = .aligning) : y.move .good =
    if 3 ≤ y.goodRun then { y with link := .up, goodRun := 4, badRun := 0 } else { y with goodRun := y.goodRun + 1 } := by
  have four : (4 ≤ y.goodRun + 1) = (3 ≤ y.goodRun) := propext Nat.succ_le_succ_iff
  simp only [SpanPort.move, link, four]

theorem SpanPort.move_aligning_bad (link : y.link = .aligning) : y.move .bad = { y with link := .down, goodRun := 0 } := by
  simp only [SpanPort.move, link]

theorem SpanPort.move_up_good (link : y.link = .up) : y.move .good = { y with badRun := 0 } := by simp only [SpanPort.move, link]

theorem SpanPort.move_up_bad (link : y.link = .up) : y.move .bad =
    if 7 ≤ y.badRun then { y with link := .down, goodRun := 0, badRun := 0 } else { y with badRun := y.badRun + 1 } := by
  have eight : (8 ≤ y.badRun + 1) = (7 ≤ y.badRun) := propext Nat.succ_le_succ_iff
  simp only [SpanPort.move, link, eight]

/-- A good frame takes no port DOWN. -/
theorem SpanPort.move_good_link : (y.move .good).link ≠ .down := by
  cases link : y.link with
  | down => rw [move_down_good link]; exact SpanLink.noConfusion
  | aligning =>
    rw [move_aligning_good link]
    split
    · exact SpanLink.noConfusion
    · rw [link]; exact SpanLink.noConfusion
  | up => rw [move_up_good link, link]; decide

end Move

/-- A port that has received a frame, good or bad, its link not yet moved (R69). -/
def SpanPort.heard (x : SpanPort) (good : Bool) : SpanPort :=
  if good then { x with arrived := true, goodFrames := bump x.goodFrames } else { x with arrived := true, frameFaults := bump x.frameFaults }

/-- The span interface with port `q` moved from `y` to `z`, and SPAN_STATE where its link changed (R72). -/
def State.portMoved (s : State) (q : SpanId) (y z : SpanPort) : Spans :=
  ⟨s.sif.ports.put q z, s.sif.remotes, s.ucb.window, if z.link = y.link then [] else [.spanState q z.link]⟩

section Arrival
variable {s : State} {q : SpanId} {g : GroupId} {sd : Side} {bs : List Byte}

/-- A bad frame counts and moves the link, and no section of it is read. -/
theorem Spans.frame_of_bad (bad : spanFrameGood bs = false) (lal : Table Group 8) (v : Spans) :
    v.frame lal q g sd bs = ({ v with ports := v.ports.edit q fun x => x.heard false } : Spans).movePort lal q .bad := by
  simp only [Spans.frame, bad, Bool.false_and, Bool.false_eq_true, if_false, SpanPort.heard]

/-- A good frame counts and moves the link; its sections are read where the port is then UP. -/
theorem Spans.frame_of_good (good : spanFrameGood bs = true) (lal : Table Group 8) (v : Spans) :
    let w := ({ v with ports := v.ports.edit q fun x => x.heard true } : Spans).movePort lal q .good
    v.frame lal q g sd bs = if (w.ports.get q).link = .up then (frameSections bs).foldl (Spans.examine lal q g sd) w else w := by
  simp only [Spans.frame, good, Bool.true_and, decide_eq_true_eq, if_true, SpanPort.heard]

/-- The port as it has received the frame, moved. -/
theorem heard_movePort (s : State) (q : SpanId) (good : Bool) (vd : SpanVerdict) :
    let y := (s.sif.ports.get q).heard good
    let moved := s.portMoved q y (y.move vd)
    ({ s.spans with ports := s.sif.ports.edit q fun x => x.heard good } : Spans).movePort s.lal q vd =
      if y.link = .up ∧ (y.move vd).link = .down then
        (servedBy s.lal q).elim moved fun x => (List.finRange 6).foldl (Spans.silence x.1 x.2) moved
      else moved := by
  have moved : ({ s.spans with ports := s.sif.ports.edit q fun x => x.heard good } : Spans).linkMoved q vd =
      s.portMoved q ((s.sif.ports.get q).heard good) (((s.sif.ports.get q).heard good).move vd) := by
    simp only [Spans.linkMoved, Table.edit, Table.get_put_self, Table.put_put]
    rfl
  simp only [Spans.movePort_eq, moved, Table.get_edit_self]

theorem spanFrame_of_unserved (unserved : servedBy s.lal q = none) : spanUplinkFrameArrival q bs s = s := by
  rw [spanUplinkFrameArrival, unserved]

theorem spanFrame_of_served (served : servedBy s.lal q = some (g, sd)) :
    spanUplinkFrameArrival q bs s = s.withSpans (s.spans.frame s.lal q g sd bs) := by
  rw [spanUplinkFrameArrival, served]

variable {y z : SpanPort}

/-- A bad frame on a port that does not go DOWN from UP. -/
theorem spanFrame_of_bad (served : servedBy s.lal q = some (g, sd)) (bad : spanFrameGood bs = false)
    (heard : (s.sif.ports.get q).heard false = y) (move : y.move .bad = z) (kept : ¬(y.link = .up ∧ z.link = .down)) :
    spanUplinkFrameArrival q bs s = s.withSpans (s.portMoved q y z) := by
  subst heard move
  rw [spanFrame_of_served served, Spans.frame_of_bad bad]
  exact congrArg s.withSpans ((heard_movePort s q false .bad).trans (if_neg kept))

/-- A bad frame on a port that goes DOWN from UP. -/
theorem spanFrame_of_lost (served : servedBy s.lal q = some (g, sd)) (bad : spanFrameGood bs = false)
    (heard : (s.sif.ports.get q).heard false = y) (move : y.move .bad = z) (up : y.link = .up) (down : z.link = .down) :
    spanUplinkFrameArrival q bs s =
      s.withSpans ((s.portMoved q y z).workAll g fun k => ((s.sif.remotes.get g).get k).silenced g sd k) := by
  subst heard move
  rw [spanFrame_of_served served, Spans.frame_of_bad bad]
  refine congrArg s.withSpans ((heard_movePort s q false .bad).trans ((if_pos ⟨up, down⟩).trans ?_))
  rw [served]
  simp only [Option.elim_some, Spans.foldl_silence]
  rfl

/-- A good frame: its sections are read where the port is UP after the move. -/
theorem spanFrame_of_good (served : servedBy s.lal q = some (g, sd)) (good : spanFrameGood bs = true)
    (heard : (s.sif.ports.get q).heard true = y) (move : y.move .good = z) :
    spanUplinkFrameArrival q bs s = s.withSpans (if z.link = .up then
        (frameSections bs).foldl (Spans.examine s.lal q g sd) (s.portMoved q y z) else s.portMoved q y z) := by
  subst heard move
  have moved := (heard_movePort s q true .good).trans (if_neg fun lost => SpanPort.move_good_link lost.2)
  have port : ∀ y z, (s.portMoved q y z).ports.get q = z := fun y z => Table.get_put_self _ _ _
  rw [spanFrame_of_served served, Spans.frame_of_good good]
  refine congrArg s.withSpans ?_
  refine (congrArg (fun w : Spans => if (w.ports.get q).link = .up then (frameSections bs).foldl (Spans.examine s.lal q g sd) w else w)
    moved).trans ?_
  rw [port]

/-- A good frame on a port that is not UP after it: no section is read. -/
theorem spanFrame_of_unread (served : servedBy s.lal q = some (g, sd)) (good : spanFrameGood bs = true)
    (heard : (s.sif.ports.get q).heard true = y) (move : y.move .good = z) (unread : z.link ≠ .up) :
    spanUplinkFrameArrival q bs s = s.withSpans (s.portMoved q y z) := by
  rw [spanFrame_of_good served good heard move, if_neg unread]

/-- A good frame on a port that is UP after it: its sections are read in their order. -/
theorem spanFrame_of_read (served : servedBy s.lal q = some (g, sd)) (good : spanFrameGood bs = true)
    (heard : (s.sif.ports.get q).heard true = y) (move : y.move .good = z) (up : z.link = .up) :
    spanUplinkFrameArrival q bs s =
      s.withSpans ((frameSections bs).foldl (Spans.examine s.lal q g sd) (s.portMoved q y z)) := by
  rw [spanFrame_of_good served good heard move, if_pos up]

theorem State.portMoved_of_same (link : z.link = y.link) :
    s.portMoved q y z = ⟨s.sif.ports.put q z, s.sif.remotes, s.ucb.window, []⟩ := by
  rw [State.portMoved, if_pos link]

theorem State.portMoved_of_change (link : z.link ≠ y.link) :
    s.portMoved q y z = ⟨s.sif.ports.put q z, s.sif.remotes, s.ucb.window, [.spanState q z.link]⟩ := by
  rw [State.portMoved, if_neg link]

end Arrival

end Sys2Proof.Machine

namespace Sys2Proof.Proofs
open Sys2Proof Sys2Proof.Machine

/-- Settles O12: the walks over the positions leave what each makes of its own remote, and the frame is read off. -/
theorem sprstResetsOnePort : Obligations.SprstResetsOnePort := by
  intro s p tag q h
  refine ⟨fun n far => exec_heard h (.sprst n) (sprst_of_far far s),
    fun unserved => exec_heard h (.sprst q.val) (sprst_of_unserved unserved), fun g sd served => ?_⟩
  intro ctx
  refine ⟨_, exec_heard h (.sprst q.val) (sprst_of_served served), ?_⟩
  rw [Spans.resetPort_eq]
  refine ⟨rfl, fun o other => ?_, fun k => ?_, ?_, ?_, rfl, rfl, rfl, rfl, rfl, rfl, rfl, rfl, rfl, rfl, rfl⟩
  · exact Table.get_put_ne _ _ other.symm
  · simp only [State.withSpans_sif, Table.get_put_self, Table.get_make]
    exact Remote.reset_spec _ g sd k
  · refine congrArg (fun w => { s.ucb with window := w }) (window_filter_congr _ fun f => ?_)
    rw [Remote.renewed_gone]
    exact f.group_stays_eq g _
  · refine congrArg s.mga.raiseAll ?_
    simp only [Spans.workAll, Remote.renewed_notices, flatMap_guard]
    rfl

/-- Settles O13: one case per entry of Table 4-1; the port that is lost silences its contexts position by position. -/
theorem spanFrameMovesTheLink : Obligations.SpanFrameMovesTheLink := by
  intro s q bs awake
  have run : exec (.spanUplinkFrameArrival q bs) s = .next (spanUplinkFrameArrival q bs s) := eventCommand_awake awake _
  refine ⟨fun unserved => run.trans (congrArg _ (spanFrame_of_unserved unserved)), fun g sd served => ?_⟩
  intro x bad good tracks moved read
  have heardBad : x.heard false = bad := rfl
  have heardGood : x.heard true = good := rfl
  refine ⟨fun isBad => ⟨fun down => ?_, fun aligning => ?_, fun up low => ?_, fun up high => ?_⟩,
    fun isGood => ⟨fun down => ?_, fun aligning low => ?_, fun aligning high => ?_, fun up => ?_⟩⟩
  · have stays : bad.link ≠ .up := fun up => nomatch down.symm.trans up
    have frame := spanFrame_of_bad served isBad heardBad (SpanPort.move_down_bad down) fun lost => stays lost.1
    exact run.trans (congrArg _ (frame.trans (congrArg s.withSpans (State.portMoved_of_same rfl))))
  · have change : SpanLink.down ≠ bad.link := fun same => nomatch same.trans aligning
    have frame := spanFrame_of_bad served isBad heardBad (SpanPort.move_aligning_bad aligning)
      fun lost => nomatch aligning.symm.trans lost.1
    exact run.trans (congrArg _ (frame.trans (congrArg s.withSpans (State.portMoved_of_change change))))
  · have move := (SpanPort.move_up_bad (y := bad) up).trans (if_neg (not_le.2 low))
    have frame := spanFrame_of_bad served isBad heardBad move fun lost => nomatch up.symm.trans lost.2
    exact run.trans (congrArg _ (frame.trans (congrArg s.withSpans (State.portMoved_of_same rfl))))
  · have move := (SpanPort.move_up_bad (y := bad) up).trans (if_pos high)
    have change : SpanLink.down ≠ bad.link := fun same => nomatch same.trans up
    have frame := spanFrame_of_lost served isBad heardBad move up rfl
    rw [State.portMoved_of_change change] at frame
    refine ⟨_, run.trans (congrArg _ frame), rfl, fun o other => Table.get_put_ne _ _ other.symm, fun k => ?_, ?_, ?_,
      rfl, rfl, rfl, rfl, rfl, rfl, rfl, rfl, rfl, rfl, rfl⟩
    · simp only [State.withSpans_sif, Spans.workAll, Table.get_put_self, Table.get_make]
      exact ⟨Remote.silenced_of_tracking, Remote.silenced_of_other⟩
    · refine congrArg (fun w => { s.ucb with window := w }) (window_filter_congr _ fun f => ?_)
      rw [Remote.silenced_gone]
      exact f.group_stays_eq g _
    · refine congrArg s.mga.raiseAll ?_
      simp only [Spans.workAll, Remote.silenced_notices, flatMap_guard]
      rfl
  · have change : SpanLink.aligning ≠ good.link := fun same => nomatch same.trans down
    have frame := spanFrame_of_unread served isGood heardGood (SpanPort.move_down_good down) SpanLink.noConfusion
    exact run.trans (congrArg _ (frame.trans (congrArg s.withSpans (State.portMoved_of_change change))))
  · have move := (SpanPort.move_aligning_good (y := good) aligning).trans (if_neg (not_le.2 low))
    have frame := spanFrame_of_unread served isGood heardGood move fun up => nomatch aligning.symm.trans up
    exact run.trans (congrArg _ (frame.trans (congrArg s.withSpans (State.portMoved_of_same rfl))))
  · have move := (SpanPort.move_aligning_good (y := good) aligning).trans (if_pos high)
    have change : SpanLink.up ≠ good.link := fun same => nomatch same.trans aligning
    have frame := spanFrame_of_read served isGood heardGood move rfl
    rw [State.portMoved_of_change change] at frame
    exact run.trans (congrArg _ frame)
  · have frame := spanFrame_of_read served isGood heardGood (SpanPort.move_up_good up) up
    have stays : ({ good with badRun := 0 } : SpanPort).link = good.link := rfl
    rw [State.portMoved_of_same stays] at frame
    exact run.trans (congrArg _ frame)

end Sys2Proof.Proofs
end

section
/-! The Span Interface's part of a close (R82 to R85): a miss, the feed side and the service of one remote, and what they make of a group. -/
namespace Sys2Proof.Machine

/-! ### Misses (R82, R83) -/

/-- A context given up at the miss limit (R83). -/
def Context.silent (c : Context) : Context := { c with state := .waiting, reason := some .silent, missRun := 0 }

theorem Context.miss_missRun (c : Context) (h : FrameNo) : (c.miss h).missRun = c.missRun + 1 := by
  unfold Context.miss
  split <;> rfl

theorem Spans.ctx_setCtx_self (v : Spans) (g : GroupId) (k : Pos) (sd : Side) (c : Context) : (v.setCtx g k sd c).ctx g k sd = c := by
  rw [Spans.ctx_setCtx, if_pos ⟨rfl, rfl, rfl⟩]

/-- What is set twice. -/
theorem Remote.setCtx_setCtx (r : Remote) (sd : Side) (c d : Context) : (r.setCtx sd c).setCtx sd d = r.setCtx sd d := by
  cases sd <;> rfl

theorem Remote.setCtx_ctx (r : Remote) (sd : Side) : r.setCtx sd (r.ctx sd) = r := by cases sd <;> rfl

/-- A context set before it goes to WAITING. -/
theorem Spans.toWaiting_setCtx (v : Spans) (g : GroupId) (k : Pos) (sd : Side) (c : Context) (why : WaitReason) :
    (v.setCtx g k sd c).toWaiting g k sd why = v.workAt g k
      ⟨(v.remote g k).setCtx sd { c with state := .waiting, reason := some why, missRun := 0 },
        fun x => decide (x = sd), [.remoteState g k sd .waiting (some why)]⟩ := by
  rw [Spans.toWaiting_eq_workAt, Spans.ctx_setCtx_self, Spans.setCtx_eq_workAt, Spans.workAt_workAt, Spans.remote_workAt_self]
  simp only [PosWork.only, Remote.setCtx_setCtx, Bool.false_or, List.nil_append]

/-- A counted miss below the limit. -/
theorem Spans.countMiss_of_below {v : Spans} {cfg : GroupConfig} {g : GroupId} {k : Pos} {sd : Side}
    (below : (v.ctx g k sd).missRun + 1 < cfg.missLimit) (h : FrameNo) :
    v.countMiss cfg h g k sd = v.workAt g k (.only ((v.remote g k).setCtx sd ((v.ctx g k sd).miss h))) := by
  unfold Spans.countMiss
  dsimp only
  rw [Context.miss_missRun, if_neg (not_le.2 below)]
  exact v.setCtx_eq_workAt g k sd _

/-- The miss at which the limit is reached. -/
theorem Spans.countMiss_of_limit {v : Spans} {cfg : GroupConfig} {g : GroupId} {k : Pos} {sd : Side}
    (limit : cfg.missLimit ≤ (v.ctx g k sd).missRun + 1) (h : FrameNo) :
    v.countMiss cfg h g k sd = v.workAt g k
      ⟨(v.remote g k).setCtx sd ((v.ctx g k sd).miss h).silent, fun x => decide (x = sd),
        [.remoteState g k sd .waiting (some .silent)]⟩ := by
  unfold Spans.countMiss
  dsimp only
  rw [Context.miss_missRun, if_pos limit]
  exact v.toWaiting_setCtx g k sd _ .silent

/-! ### One context at a close (R82, R83) -/

/-- A context misses the closing slot, of which `x` is what is filed under its key. -/
def Context.missed (c : Context) (x : Option Filed) : Bool := c.state == .tracking && x.isNone

/-- A context is given up at the closing slot. -/
def Context.givenUp (cfg : GroupConfig) (c : Context) (x : Option Filed) : Bool :=
  c.missed x && decide (cfg.missLimit ≤ c.missRun + 1)

/-- A context after the close of slot `h`. -/
def Context.closed (cfg : GroupConfig) (h : FrameNo) (c : Context) (x : Option Filed) : Context :=
  if c.givenUp cfg x then (c.miss h).silent else if c.missed x then c.miss h else c

/-- What the close of slot `h` makes of one context. -/
def closeWork (cfg : GroupConfig) (h : FrameNo) (g : GroupId) (k : Pos) (sd : Side) (r : Remote) (x : Option Filed) : PosWork :=
  ⟨r.setCtx sd ((r.ctx sd).closed cfg h x), fun y => decide (y = sd) && (r.ctx sd).givenUp cfg x,
    if (r.ctx sd).givenUp cfg x then [.remoteState g k sd .waiting (some .silent)] else []⟩

theorem Spans.closeContext_eq_workAt (cfg : GroupConfig) (h : FrameNo) (g : GroupId) (v : Spans) (k : Pos) (sd : Side) :
    Spans.closeContext cfg h g v (k, sd) = v.workAt g k (closeWork cfg h g k sd (v.remote g k) (filedFor v.window h g k sd)) := by
  have missed : ((v.remote g k).ctx sd).missed (filedFor v.window h g k sd) = true ↔
      (v.ctx g k sd).state = .tracking ∧ filedFor v.window h g k sd = none := by
    rw [Context.missed, Bool.and_eq_true, beq_iff_eq, Option.isNone_iff_eq_none]
    rfl
  unfold Spans.closeContext closeWork Context.closed Context.givenUp
  by_cases miss : (v.ctx g k sd).state = .tracking ∧ filedFor v.window h g k sd = none
  · rw [if_pos miss, missed.2 miss]
    by_cases limit : cfg.missLimit ≤ (v.ctx g k sd).missRun + 1
    · have due : decide (cfg.missLimit ≤ ((v.remote g k).ctx sd).missRun + 1) = true := decide_eq_true limit
      rw [Spans.countMiss_of_limit limit, due]
      simp only [Bool.and_true, if_true]
      rfl
    · have due : decide (cfg.missLimit ≤ ((v.remote g k).ctx sd).missRun + 1) = false := decide_eq_false limit
      rw [Spans.countMiss_of_below (not_le.1 limit), due]
      simp only [Bool.and_false, Bool.false_eq_true, if_false, if_true]
      rfl
  · rw [if_neg miss, Bool.eq_false_iff.2 (mt missed.1 miss)]
    simp only [Bool.false_and, Bool.and_false, Bool.false_eq_true, if_false, Remote.setCtx_ctx]
    exact (v.workAt_idle g k).symm

/-! ### What a close reads -/

/-- Sections under other keys may go. -/
theorem filedFor_filter {w : List WindowSlot} {p : Filed → Bool} {g : GroupId} {k : Pos} {sd : Side} (h : FrameNo)
    (stays : ∀ f : Filed, f.under g k sd = true → p f = true) :
    filedFor (w.map fun x => { x with filed := x.filed.filter p }) h g k sd = filedFor w h g k sd := by
  have found : ∀ fs : List Filed, (fs.filter p).find? (fun f => f.under g k sd) = fs.find? fun f => f.under g k sd := by
    intro fs
    rw [List.find?_filter]
    refine congrArg (fun q => List.find? q fs) (funext fun f => ?_)
    cases own : f.under g k sd with
    | false => simp
    | true => simp [stays f own]
  have slot : (w.map fun x => { x with filed := x.filed.filter p }).find? (fun x => x.hfn = h) =
      (w.find? fun x => x.hfn = h).map fun x => { x with filed := x.filed.filter p } := List.find?_map
  unfold filedFor
  rw [slot]
  cases w.find? fun x => x.hfn = h with
  | none => rfl
  | some x => exact found x.filed

theorem filedFor_workAt_ne {k j : Pos} (ne : k ≠ j) (v : Spans) (h : FrameNo) (g : GroupId) (c : PosWork) (sd : Side) :
    filedFor (v.workAt g k c).window h g j sd = filedFor v.window h g j sd := by
  refine filedFor_filter h fun f own => ?_
  obtain ⟨-, pos, -⟩ := (f.under_iff g j sd).1 own
  simp [pos, ne.symm]

theorem filedFor_workAt_stays {c : PosWork} {sd : Side} (stays : c.gone sd = false) (v : Spans) (h : FrameNo) (g : GroupId) (k : Pos) :
    filedFor (v.workAt g k c).window h g k sd = filedFor v.window h g k sd := by
  refine filedFor_filter h fun f own => ?_
  obtain ⟨-, -, side⟩ := (f.under_iff g k sd).1 own
  simp [side, stays]

/-! ### The contexts of a group -/

/-- What the close of slot `h` makes of the two contexts of a position. -/
def Spans.closeWorks (cfg : GroupConfig) (h : FrameNo) (g : GroupId) (v : Spans) (k : Pos) : PosWork :=
  let x := fun sd => filedFor v.window h g k sd
  let r := v.remote g k
  ⟨{ r with ctxA := r.ctxA.closed cfg h (x .a), ctxB := r.ctxB.closed cfg h (x .b) },
    fun sd => (r.ctx sd).givenUp cfg (x sd),
    [Side.a, Side.b].flatMap fun sd => if (r.ctx sd).givenUp cfg (x sd) then [.remoteState g k sd .waiting (some .silent)] else []⟩

theorem Spans.closeContexts_eq_workAt (cfg : GroupConfig) (h : FrameNo) (g : GroupId) (v : Spans) (k : Pos) :
    [(k, Side.a), (k, Side.b)].foldl (Spans.closeContext cfg h g) v = v.workAt g k (v.closeWorks cfg h g k) := by
  have window : ∀ r x, filedFor (v.workAt g k (closeWork cfg h g k .a r x)).window h g k .b = filedFor v.window h g k .b :=
    fun r x => filedFor_workAt_stays rfl v h g k
  simp only [List.foldl_cons, List.foldl_nil, Spans.closeContext_eq_workAt, Spans.workAt_workAt, Spans.remote_workAt_self, window]
  refine congrArg (v.workAt g k) ?_
  simp only [Spans.closeWorks, closeWork, List.flatMap_cons, List.flatMap_nil, List.append_nil]
  refine congrArg (fun gone => (⟨_, gone, _⟩ : PosWork)) (funext fun sd => ?_)
  cases sd with
  | a => exact (Bool.or_false _).trans (Bool.true_and _)
  | b => exact (Bool.false_or _).trans (Bool.true_and _)

theorem Spans.closeWorks_ctx (cfg : GroupConfig) (h : FrameNo) (g : GroupId) (v : Spans) (k : Pos) (sd : Side) :
    (v.closeWorks cfg h g k).remote.ctx sd = ((v.remote g k).ctx sd).closed cfg h (filedFor v.window h g k sd) := by
  cases sd <;> rfl

theorem Spans.foldl_closeContext (cfg : GroupConfig) (h : FrameNo) (g : GroupId) (v : Spans) :
    contextKeys.foldl (Spans.closeContext cfg h g) v = v.workAll g (v.closeWorks cfg h g) := by
  rw [contextKeys, List.foldl_flatMap]
  refine foldl_workAt (change := Spans.closeWorks cfg h g) (Spans.closeContexts_eq_workAt cfg h g) (fun v k c j ne => ?_) v
  simp only [Spans.closeWorks, filedFor_workAt_ne ne, Spans.remote_workAt_ne v g ne]

/-! ### Feed side and service (R84, R85) -/

/-- A ring remote's feed side moves at a close. -/
def Remote.moves (r : Remote) (cfg : GroupConfig) (k : Pos) : Bool :=
  cfg.form == .ring && decide (k.val < cfg.remotes) && !((r.ctx r.feed).state == .tracking) &&
    (r.ctx (otherSide r.feed)).state == .tracking

/-- What a close makes of a feed side. -/
def Remote.feedWork (r : Remote) (cfg : GroupConfig) (g : GroupId) (k : Pos) : PosWork :=
  if r.moves cfg k then ⟨{ r with feed := otherSide r.feed }, fun _ => false, [.remoteSide g k (otherSide r.feed)]⟩ else .only r

theorem Remote.feedWork_gone (r : Remote) (cfg : GroupConfig) (g : GroupId) (k : Pos) (sd : Side) :
    (r.feedWork cfg g k).gone sd = false := by
  unfold Remote.feedWork
  split <;> rfl

theorem configured_iff (cfg : GroupConfig) (k : Pos) : cfg.configured k = true ↔ cfg.form ≠ .unused ∧ k.val < cfg.remotes := by
  rw [GroupConfig.configured, Bool.and_eq_true, decide_eq_true_eq, decide_eq_true_eq]

theorem Remote.moves_iff (r : Remote) (cfg : GroupConfig) (k : Pos) : r.moves cfg k = true ↔
    cfg.form = .ring ∧ cfg.configured k ∧ (r.ctx r.feed).state ≠ .tracking ∧ (r.ctx (otherSide r.feed)).state = .tracking := by
  have served : cfg.form = .ring → cfg.form ≠ .unused := fun ring => by rw [ring]; exact GroupForm.noConfusion
  simp only [Remote.moves, Bool.and_eq_true, Bool.not_eq_true', beq_iff_eq, beq_eq_false_iff_ne, decide_eq_true_eq, configured_iff, and_assoc]
  exact ⟨fun ⟨ring, near, silent, other⟩ => ⟨ring, served ring, near, silent, other⟩,
    fun ⟨ring, _, near, silent, other⟩ => ⟨ring, near, silent, other⟩⟩

theorem Spans.closeFeed_eq_workAt (cfg : GroupConfig) (g : GroupId) (v : Spans) (k : Pos) :
    Spans.closeFeed cfg g v k = v.workAt g k ((v.remote g k).feedWork cfg g k) := by
  unfold Spans.closeFeed Remote.feedWork
  dsimp only
  simp only [← Remote.moves_iff]
  split
  · rw [Spans.editRemote_eq_workAt]
    simp only [Spans.say, Spans.workAt, PosWork.only, List.append_nil]
  · exact (v.workAt_idle g k).symm

theorem Spans.foldl_closeFeed (cfg : GroupConfig) (g : GroupId) (v : Spans) :
    (List.finRange 6).foldl (Spans.closeFeed cfg g) v = v.workAll g fun k => (v.remote g k).feedWork cfg g k :=
  foldl_remoteWork (change := fun k r => r.feedWork cfg g k) (Spans.closeFeed_eq_workAt cfg g) v

/-- The service flag of a remote after a close. -/
def Remote.serviced (r : Remote) (cfg : GroupConfig) (k : Pos) : Remote :=
  { r with inService := cfg.configured k && (r.ctx r.feed).state = .tracking }

theorem Spans.foldl_closeService (cfg : GroupConfig) (g : GroupId) (v : Spans) :
    (List.finRange 6).foldl (Spans.closeService cfg g) v =
      { v with remotes := v.remotes.put g (.make fun k => (v.remote g k).serviced cfg k) } :=
  (foldl_remoteWork (change := fun k r => .only (r.serviced cfg k)) (fun v k => v.editRemote_eq_workAt g k _) v).trans
    (v.workAll_only g _)

/-- What a close makes of a served group: its contexts, then its feed sides, then its service flags. -/
theorem Spans.closeGroup_of_served {lal : Table Group 8} {g : GroupId} (served : (configOf lal g).form ≠ .unused) (h : FrameNo)
    (v : Spans) :
    let cfg := configOf lal g
    let closed := v.closeWorks cfg h g
    let fed := fun k => (closed k).remote.feedWork cfg g k
    v.closeGroup lal h g =
      { v with
        remotes := v.remotes.put g (.make fun k => (fed k).remote.serviced cfg k)
        window := v.window.map fun x => { x with filed := x.filed.filter fun f => !(f.group == g && (closed f.pos).gone f.side) }
        out := v.out ++ ((List.finRange 6).flatMap fun k => (closed k).notices) ++ (List.finRange 6).flatMap fun k => (fed k).notices } := by
  dsimp only
  unfold Spans.closeGroup
  dsimp only
  rw [if_neg served, Spans.foldl_closeContext, Spans.foldl_closeFeed, Spans.foldl_closeService]
  have window := window_filter_true (v.workAll g (v.closeWorks (configOf lal g) h g)).window
    (p := fun f => !(f.group == g && (((v.closeWorks (configOf lal g) h g f.pos).remote).feedWork (configOf lal g) g f.pos).gone f.side))
    fun f => by rw [Remote.feedWork_gone, Bool.and_false]; rfl
  simp only [Spans.remote_workAll]
  simp only [Spans.workAll, Table.put_put] at window ⊢
  rw [window]

theorem Remote.feedWork_remote (r : Remote) (cfg : GroupConfig) (g : GroupId) (k : Pos) :
    (r.feedWork cfg g k).remote = { r with feed := if r.moves cfg k then otherSide r.feed else r.feed } := by
  unfold Remote.feedWork
  split <;> rfl

theorem Remote.feedWork_notices (r : Remote) (cfg : GroupConfig) (g : GroupId) (k : Pos) :
    (r.feedWork cfg g k).notices = if r.moves cfg k = true then [.remoteSide g k (otherSide r.feed)] else [] := by
  unfold Remote.feedWork
  split <;> rfl

theorem Remote.ctx_withFeed (r : Remote) (f sd : Side) : ({ r with feed := f } : Remote).ctx sd = r.ctx sd := by cases sd <;> rfl

section ServedGroup
variable {lal : Table Group 8} {g : GroupId} (served : (configOf lal g).form ≠ .unused) (h : FrameNo) (v : Spans)
include served

/-- A remote after a close: contexts, then feed side, then service. -/
theorem Spans.closeGroup_remote (k : Pos) :
    let cfg := configOf lal g
    let c := (v.closeWorks cfg h g k).remote
    let f := if c.moves cfg k then otherSide c.feed else c.feed
    (v.closeGroup lal h g).remote g k =
      { c with feed := f, inService := decide (k.val < cfg.remotes) && (c.ctx f).state == .tracking } := by
  have used : (configOf lal g).configured k = decide (k.val < (configOf lal g).remotes) := by
    rw [Bool.eq_iff_iff, configured_iff, decide_eq_true_eq]
    exact and_iff_right served
  dsimp only
  rw [Spans.closeGroup_of_served served]
  simp only [Spans.remote, Table.get_put_self, Table.get_make, Remote.feedWork_remote, Remote.serviced, Remote.ctx_withFeed, used]
  rfl

/-- The notices of a close: contexts given up, then feed sides moved. -/
theorem Spans.closeGroup_out :
    let cfg := configOf lal g
    (v.closeGroup lal h g).out = v.out ++
      ((contextKeys.filter fun x => ((v.remote g x.1).ctx x.2).givenUp cfg (filedFor v.window h g x.1 x.2)).map
        fun x => .remoteState g x.1 x.2 .waiting (some .silent)) ++
      (((List.finRange 6).filter fun k => (v.closeWorks cfg h g k).remote.moves cfg k).map
        fun k => .remoteSide g k (otherSide (v.remote g k).feed)) := by
  have contexts := flatMap_guard
    (fun x : Pos × Side => ((v.remote g x.1).ctx x.2).givenUp (configOf lal g) (filedFor v.window h g x.1 x.2) = true)
    (fun x => Notice.remoteState g x.1 x.2 .waiting (some .silent)) contextKeys
  have feeds := flatMap_guard (fun k => (v.closeWorks (configOf lal g) h g k).remote.moves (configOf lal g) k = true)
    (fun k => Notice.remoteSide g k (otherSide (v.remote g k).feed)) (List.finRange 6)
  simp only [Bool.decide_eq_true] at contexts feeds
  dsimp only
  rw [Spans.closeGroup_of_served served, ← contexts, ← feeds, contextKeys, List.flatMap_assoc]
  simp only [Remote.feedWork_notices]
  rfl

end ServedGroup

/-! ### MISS_LIMIT_REACHED (R83) -/

theorem missLimitReached_of_early {s : State} {g : GroupId} {k : Pos} {sd : Side}
    (early : ¬((s.spans.ctx g k sd).state = .tracking ∧ (configOf s.lal g).missLimit ≤ (s.spans.ctx g k sd).missRun + 1)) :
    missLimitReached g k sd s = s := if_neg early

theorem missLimitReached_of_due {s : State} {g : GroupId} {k : Pos} {sd : Side} (tracking : (s.spans.ctx g k sd).state = .tracking)
    (limit : (configOf s.lal g).missLimit ≤ (s.spans.ctx g k sd).missRun + 1) :
    missLimitReached g k sd s = s.withSpans (s.spans.workAt g k
      ⟨(s.spans.remote g k).setCtx sd ((s.spans.ctx g k sd).miss (s.fps.next - 4)).silent, fun x => decide (x = sd),
        [.remoteState g k sd .waiting (some .silent)]⟩) := by
  refine (if_pos ⟨tracking, limit⟩).trans (congrArg s.withSpans ?_)
  exact Spans.countMiss_of_limit limit _

/-- A miss touches run and expectations alone. -/
theorem Context.miss_counts (c : Context) (h : FrameNo) :
    (c.miss h).accepted = c.accepted ∧ (c.miss h).late = c.late ∧ (c.miss h).orderFaults = c.orderFaults ∧
    (c.miss h).unstarted = c.unstarted := by
  unfold Context.miss
  split <;> exact ⟨rfl, rfl, rfl, rfl⟩

end Sys2Proof.Machine

namespace Sys2Proof.Proofs
open Sys2Proof Sys2Proof.Machine

/-- Settles O15: the row is the miss at which the limit is reached. At a close the two contexts of a position read nothing that another position
changes, so the walks over contexts, feed sides and service flags leave what each makes of its own remote. -/
theorem missLimitSilencesTheContext : Obligations.MissLimitSilencesTheContext := by
  refine ⟨fun s g k sd awake => ?_, fun v lal h g => ?_⟩
  · have run : exec (.missLimitReached g k sd) s = .next (missLimitReached g k sd s) := eventCommand_awake awake _
    intro c
    refine ⟨fun early => run.trans (congrArg _ (missLimitReached_of_early fun due => ?_)), fun tracking limit => ?_⟩
    · obtain other | below := early
      · exact other due.1
      · exact absurd due.2 (not_le.2 below)
    · obtain ⟨accepted, late, faults, unstarted⟩ := c.miss_counts (s.fps.next - 4)
      refine ⟨_, (c.miss (s.fps.next - 4)).silent, run.trans (congrArg _ (missLimitReached_of_due tracking limit)), rfl, rfl, rfl, rfl,
        accepted, late, faults, unstarted, ?_, rfl, rfl, rfl, rfl, rfl, rfl, rfl, rfl, rfl, rfl, rfl⟩
      refine congrArg (fun w => { s.ucb with window := w }) (window_filter_congr _ fun f => ?_)
      exact f.stays_eq g k sd
  · intro w cfg missed givenUp counted after tracks moves
    refine ⟨fun unused => if_pos unused, fun served => ?_⟩
    have moves_eq : ∀ k, (v.closeWorks (configOf lal g) h g k).remote.moves (configOf lal g) k = moves k := by
      intro k
      rw [Remote.moves, Spans.closeWorks_ctx, Spans.closeWorks_ctx]
      rfl
    refine ⟨fun k => ?_, fun o other => ?_, ?_, ?_, ?_⟩
    · refine (Spans.closeGroup_remote served h v k).trans ?_
      rw [Spans.closeWorks_ctx, moves_eq]
      rfl
    · refine (congrArg (fun u : Spans => u.remotes.get o) (Spans.closeGroup_of_served served h v)).trans ?_
      exact Table.get_put_ne _ _ other.symm
    · exact (congrArg Spans.ports (Spans.closeGroup_of_served served h v)).trans rfl
    · exact (congrArg Spans.window (Spans.closeGroup_of_served served h v)).trans rfl
    · refine (Spans.closeGroup_out served h v).trans ?_
      simp only [moves_eq]
      rfl

end Sys2Proof.Proofs
end

section
/-! The examination of a section (R76 to R81): what it is read as, the tests of its side context, and the test of the window. -/
namespace Sys2Proof.Machine

/-! ### Position and radiator (R76) -/

theorem configuredPos_eq_some {cfg : GroupConfig} {p : BitVec 3} {k : Pos} :
    configuredPos cfg p = some k ↔ p.toNat = k.val + 1 ∧ cfg.form ≠ .unused ∧ k.val < cfg.remotes := by
  have named : p ≠ 0 ∧ index 6 (p.toNat - 1) = some k ↔ p.toNat = k.val + 1 := by
    have zero : p = 0 ↔ p.toNat = 0 := BitVec.toNat_inj.symm
    rw [ne_eq, zero, index]
    split
    · rw [Option.some.injEq, Fin.ext_iff]
      dsimp only
      omega
    · have := k.isLt
      simp only [reduceCtorEq, and_false, false_iff]
      omega
  rw [← named, ← configured_iff]
  unfold configuredPos
  cases index 6 (p.toNat - 1) with
  | none => simp
  | some j =>
    obtain rfl | ne := eq_or_ne j k
    · simp
    · simp [ne]

theorem configuredPos_eq_none {cfg : GroupConfig} {p : BitVec 3}
    (unnamed : ∀ k : Pos, ¬(p.toNat = k.val + 1 ∧ cfg.form ≠ .unused ∧ k.val < cfg.remotes)) : configuredPos cfg p = none :=
  Option.eq_none_iff_forall_ne_some.2 fun k named => unnamed k (configuredPos_eq_some.1 named)

section Examine
variable {lal : Table Group 8} {q : SpanId} {g : GroupId} {sd : Side} {v : Spans} {bs : List Byte}

theorem examine_of_fault (fault : sectionCheckPasses bs = false) :
    Spans.examine lal q g sd v bs =
      { v with ports := v.ports.put q { v.ports.get q with sectionFaults := bump (v.ports.get q).sectionFaults } } := by
  rw [Spans.examine, fault]
  rfl

theorem examine_of_unknown (passes : sectionCheckPasses bs = true)
    (unknown : configuredPos (configOf lal g) (sectionHeader bs).position = none ∨ codeRadiator (sectionHeader bs).radiator = none) :
    Spans.examine lal q g sd v bs =
      { v with
        ports := v.ports.put q { v.ports.get q with unknownSections := bump (v.ports.get q).unknownSections }
        out := v.out ++ [.sectionFault q (sectionHeader bs).position (sectionHeader bs).echo (sectionHeader bs).radiator] } := by
  rw [Spans.examine, passes, if_neg (by decide)]
  dsimp only
  split
  · next named coded =>
    obtain none | none := unknown
    · exact nomatch named.symm.trans none
    · exact nomatch coded.symm.trans none
  · rfl

theorem examine_of_known {k : Pos} {rad : Radiator} (passes : sectionCheckPasses bs = true)
    (named : configuredPos (configOf lal g) (sectionHeader bs).position = some k)
    (coded : codeRadiator (sectionHeader bs).radiator = some rad) :
    Spans.examine lal q g sd v bs = v.consult g k sd (sectionHeader bs) rad (sectionBlocks bs) := by
  rw [Spans.examine, passes]
  simp only [Bool.not_true, Bool.false_eq_true, if_false, named, coded]

end Examine

/-! ### The window (R80, R81, R98) -/

/-- The expectations of a context past a section, its misses forgotten (R80). -/
def Context.past (c : Context) (h : SectionHeader) : Context :=
  { c with expCount := h.count + 1, expEcho := h.echo + 1, missRun := 0 }

/-- The context `c` stands, and notices have been raised. -/
def Spans.standing (v : Spans) (g : GroupId) (k : Pos) (sd : Side) (c : Context) (ns : List Notice) : Spans :=
  { v with remotes := v.remotes.edit g fun t => t.put k ((v.remote g k).setCtx sd c), out := v.out ++ ns }

/-- A remote whose reports are taken where the section is on its feed side (R81). -/
def Remote.reported (r : Remote) (sd : Side) (h : BitVec 2) (rad : Radiator) : Remote :=
  if r.feed = sd then { r with headroom := some h, radiator := some rad } else r

/-- A section accepted and filed, with the reports taken (R80, R81). -/
def Spans.accepted (v : Spans) (g : GroupId) (k : Pos) (sd : Side) (h : SectionHeader) (rad : Radiator) (blocks : Table LaneBlock 32)
    (c : Context) (ns : List Notice) : Spans :=
  let r := v.remote g k
  { v with
    remotes := v.remotes.edit g fun t => t.put k
      ((r.reported sd h.headroom rad).setCtx sd { c.past h with accepted := bump c.accepted })
    window := fileSection v.window h.echo ⟨g, k, sd, blocks⟩
    out := v.out ++ ns ++ if r.feed = sd ∧ ¬(r.headroom = some h.headroom ∧ r.radiator = some rad) then
      [.remoteReport g k h.headroom rad] else [] }

section Window
variable {v : Spans} {g : GroupId} {k : Pos} {sd : Side} {h : SectionHeader} {rad : Radiator} {off : Int} {blocks : Table LaneBlock 32}

theorem Spans.setCtx_eq_standing (c : Context) : v.setCtx g k sd c = v.standing g k sd c [] := by
  rw [Spans.standing, List.append_nil]
  rfl

theorem Spans.standing_own (v : Spans) (g : GroupId) (k : Pos) (sd : Side) : v.standing g k sd (v.ctx g k sd) [] = v := by
  rw [← Spans.setCtx_eq_standing, Spans.setCtx_eq_workAt, Spans.ctx, Remote.setCtx_ctx, Spans.workAt_idle]

theorem Spans.standing_remote (c : Context) (ns : List Notice) : (v.standing g k sd c ns).remote g k = (v.remote g k).setCtx sd c := by
  simp [Spans.standing, Spans.remote]

theorem Spans.standing_ctx (c : Context) (ns : List Notice) : (v.standing g k sd c ns).ctx g k sd = c := by
  rw [Spans.ctx, Spans.standing_remote, Remote.ctx_setCtx_self]

theorem Spans.standing_setCtx (c d : Context) (ns : List Notice) :
    (v.standing g k sd c ns).setCtx g k sd d = v.standing g k sd d ns := by
  rw [Spans.setCtx_eq_standing, Spans.standing, Spans.standing_remote, Remote.setCtx_setCtx]
  simp only [Spans.standing, Table.edit, Table.get_put_self, Table.put_put, List.append_nil]

theorem Remote.reported_setCtx (r : Remote) (sd sd' : Side) (c : Context) (h : BitVec 2) (rad : Radiator) :
    (r.setCtx sd' c).reported sd h rad = (r.reported sd h rad).setCtx sd' c := by
  unfold Remote.reported
  rw [Remote.setCtx_feed]
  split
  · cases sd' <;> rfl
  · rfl

theorem Spans.takeReports_eq (v : Spans) (g : GroupId) (k : Pos) (sd : Side) (h : BitVec 2) (rad : Radiator) :
    v.takeReports g k sd h rad =
      { v with
        remotes := v.remotes.edit g fun t => t.put k ((v.remote g k).reported sd h rad)
        out := v.out ++ if (v.remote g k).feed = sd ∧ ¬((v.remote g k).headroom = some h ∧ (v.remote g k).radiator = some rad) then
          [.remoteReport g k h rad] else [] } := by
  have own : (v.remotes.edit g fun t => t.put k (v.remote g k)) = v.remotes := congrArg Spans.remotes (v.workAt_idle g k)
  unfold Spans.takeReports Remote.reported
  by_cases fed : (v.remote g k).feed = sd
  · subst fed
    simp only [ne_eq, not_true_eq_false, if_false, true_and, if_true]
    by_cases same : (v.remote g k).headroom = some h ∧ (v.remote g k).radiator = some rad
    · rw [if_pos same, if_neg (not_not.2 same), List.append_nil]
      rfl
    · rw [if_neg same, if_pos same]
      rfl
  · simp only [fed, ne_eq, not_false_eq_true, if_true, false_and, if_false, own, List.append_nil]

/-- An open slot accepts, whatever the offset (entry 11). -/
theorem windowTest_of_open (opened : h.echo ∈ openSlots v.window) (c : Context) (ns : List Notice) :
    (v.standing g k sd c ns).windowTest g k sd h rad off blocks = v.accepted g k sd h rad blocks c ns := by
  have window : (v.standing g k sd c ns).window = v.window := rfl
  have remote : ∀ (d : Context) (w : List WindowSlot),
      ({ v.standing g k sd d ns with window := w } : Spans).remote g k = (v.remote g k).setCtx sd d :=
    fun d _ => Spans.standing_remote d ns
  unfold Spans.windowTest
  dsimp only
  rw [window, if_pos (List.contains_iff_mem.2 opened), Spans.standing_ctx, Spans.standing_setCtx, Spans.takeReports_eq, remote,
    Remote.reported_setCtx, Remote.setCtx_feed, Remote.setCtx_headroom, Remote.setCtx_radiator]
  simp only [Spans.standing, Spans.accepted, Table.edit, Table.get_put_self, Table.put_put]
  rfl

/-- A section whose slot is closed is LATE; with an offset from 0 on the expectations move past it. -/
theorem windowTest_of_late (closed : h.echo ∉ openSlots v.window) (ahead : 0 ≤ off) (c : Context) (ns : List Notice) :
    (v.standing g k sd c ns).windowTest g k sd h rad off blocks =
      v.standing g k sd { c.past h with late := bump c.late } ns := by
  have window : (v.standing g k sd c ns).window = v.window := rfl
  unfold Spans.windowTest
  dsimp only
  rw [window, if_neg (mt List.contains_iff_mem.1 closed), if_pos ahead, Spans.standing_ctx, Spans.standing_setCtx]
  rfl

/-- A LATE section behind the expectations keeps them. -/
theorem windowTest_of_behind (closed : h.echo ∉ openSlots v.window) (behind : off < 0) (c : Context) (ns : List Notice) :
    (v.standing g k sd c ns).windowTest g k sd h rad off blocks =
      v.standing g k sd { c with missRun := (-off - 1).toNat, late := bump c.late } ns := by
  have window : (v.standing g k sd c ns).window = v.window := rfl
  unfold Spans.windowTest
  dsimp only
  rw [window, if_neg (mt List.contains_iff_mem.1 closed), if_neg (not_le.2 behind), Spans.standing_ctx, Spans.standing_setCtx]

/-! ### The side context (R77 to R79) -/

theorem inStep_iff (c : Context) (h : SectionHeader) : inStep c h = true ↔
    h.count - c.expCount = BitVec.ofInt 8 (stepOffset c h) ∧ -(c.missRun : Int) ≤ stepOffset c h ∧ stepOffset c h ≤ 3 := by
  simp only [inStep, Bool.and_eq_true, beq_iff_eq, decide_eq_true_eq, and_assoc]

theorem consult_of_unstarted (waiting : (v.ctx g k sd).state = .waiting) (plain : h.start = false) :
    v.consult g k sd h rad blocks = v.setCtx g k sd { v.ctx g k sd with unstarted := bump (v.ctx g k sd).unstarted } := by
  unfold Spans.consult
  simp only [waiting, plain]

theorem consult_of_begun (waiting : (v.ctx g k sd).state = .waiting) (start : h.start = true) :
    v.consult g k sd h rad blocks =
      (v.standing g k sd { v.ctx g k sd with state := .tracking, reason := none, expCount := h.count, expEcho := h.echo }
        [.remoteState g k sd .tracking none]).windowTest g k sd h rad 0 blocks := by
  unfold Spans.consult
  simp only [waiting, start]
  rfl

theorem consult_of_restarted (tracking : (v.ctx g k sd).state = .tracking) (start : h.start = true) {ns : List Notice}
    (resync : (if inStep (v.ctx g k sd) h then [] else
      [.remoteResync g k sd (v.ctx g k sd).expCount (v.ctx g k sd).expEcho h.count h.echo]) = ns) :
    v.consult g k sd h rad blocks =
      (v.standing g k sd { v.ctx g k sd with expCount := h.count, expEcho := h.echo } ns).windowTest g k sd h rad 0 blocks := by
  subst resync
  unfold Spans.consult
  simp only [tracking, start]
  split
  · rw [Spans.setCtx_eq_standing]
  · rfl

theorem consult_of_stepped (tracking : (v.ctx g k sd).state = .tracking) (plain : h.start = false) (step : inStep (v.ctx g k sd) h = true) :
    v.consult g k sd h rad blocks = v.windowTest g k sd h rad (stepOffset (v.ctx g k sd) h) blocks := by
  unfold Spans.consult
  simp only [tracking, plain, step, if_true]

theorem consult_of_disorder (tracking : (v.ctx g k sd).state = .tracking) (plain : h.start = false)
    (astray : inStep (v.ctx g k sd) h = false) :
    v.consult g k sd h rad blocks = v.workAt g k
      ⟨(v.remote g k).setCtx sd { v.ctx g k sd with
          state := .waiting, reason := some .order, missRun := 0, orderFaults := bump (v.ctx g k sd).orderFaults },
        fun x => decide (x = sd), [.remoteState g k sd .waiting (some .order)]⟩ := by
  unfold Spans.consult
  simp only [tracking, plain, astray, Bool.false_eq_true, if_false]
  exact v.toWaiting_setCtx g k sd _ .order

end Window

end Sys2Proof.Machine

namespace Sys2Proof.Proofs
open Sys2Proof Sys2Proof.Machine

/-- Settles O14: each clause is one branch of the examination, of the side context's tests, or of the window's, and what stands when the window is
asked decides what it leaves. -/
theorem sectionWithoutStartIsStepped : Obligations.SectionWithoutStartIsStepped := by
  refine ⟨fun v lal q g sd bs => ?_, fun v g k sd h rad blocks => ?_⟩
  · intro w x h cfg names
    have known : ∀ {k : Pos} {rad : Radiator}, sectionCheckPasses bs = true → names k → codeRadiator h.radiator = some rad →
        w = v.consult g k sd h rad (sectionBlocks bs) :=
      fun passes named coded => examine_of_known passes (configuredPos_eq_some.2 named) coded
    refine ⟨examine_of_fault, fun passes => ⟨fun unknown => examine_of_unknown passes ?_, fun k named =>
      ⟨fun code => ?_, fun code => ?_, fun code => ?_⟩⟩⟩
    · exact unknown.imp configuredPos_eq_none fun code => by rw [code]; rfl
    all_goals exact known passes named (by rw [code]; rfl)
  · intro r c w off step isOpen here past accepted late
    have inStep_step : inStep c h = true ↔ step := inStep_iff c h
    have own : v.standing g k sd c [] = v := v.standing_own g k sd
    have accepted_eq : ∀ d ns, v.accepted g k sd h rad blocks d ns = accepted d ns := by
      intro d ns
      simp only [Spans.accepted, fileSection, Filed.stays_eq]
      rfl
    have tested : ∀ {d ns} {off : Int}, w = (v.standing g k sd d ns).windowTest g k sd h rad off blocks → 0 ≤ off →
        (isOpen → w = accepted d ns) ∧ (¬isOpen → w = late d ns) :=
      fun test ahead => ⟨fun opened => test.trans ((windowTest_of_open opened _ _).trans (accepted_eq _ _)),
        fun closed => test.trans (windowTest_of_late closed ahead _ _)⟩
    refine ⟨fun waiting plain => (consult_of_unstarted waiting plain).trans rfl, fun waiting start => ?_, fun tracking start => ?_,
      fun tracking plain => ⟨fun astray => ?_, ?_⟩⟩
    · have begun := tested (consult_of_begun waiting start) le_rfl
      exact begun
    · refine ⟨fun inOrder => ?_, fun astray => ?_⟩
      · have taken := tested (consult_of_restarted tracking start (if_pos (inStep_step.2 inOrder))) le_rfl
        exact taken
      · have taken := tested (consult_of_restarted tracking start (if_neg (mt inStep_step.1 astray))) le_rfl
        exact taken
    · have disorder := consult_of_disorder (rad := rad) (blocks := blocks) tracking plain
        (Bool.eq_false_iff.2 (mt inStep_step.1 astray))
      refine disorder.trans ?_
      exact congrArg (fun x => Spans.mk _ _ x _) (window_filter_congr v.window fun f => f.stays_eq g k sd)
    · have stepped : step → w = (v.standing g k sd c []).windowTest g k sd h rad off blocks := fun inOrder => by
        rw [own]
        exact consult_of_stepped tracking plain (inStep_step.2 inOrder)
      refine ⟨fun inOrder opened => ?_, fun inOrder closed ahead => ?_, fun inOrder closed behind => ?_⟩
      · exact (stepped inOrder).trans ((windowTest_of_open opened c []).trans (accepted_eq c []))
      · exact (tested (stepped inOrder) ahead).2 closed
      · refine (stepped inOrder).trans ((windowTest_of_behind closed behind c []).trans ?_)
        exact (Spans.setCtx_eq_standing _).symm.trans rfl

end Sys2Proof.Proofs
end

section
/-! The law of the combine window (R96, R97): what each work of the span interface leaves of the open slots and the sections filed in them, and
how a slot event moves the window on. -/
namespace Sys2Proof.Machine

/-! ### The law -/

/-- The `k` HFNs up to `h`, the earliest first. -/
def lastHfns (h : FrameNo) (k : Nat) : List FrameNo := (List.range k).map fun j => h - BitVec.ofNat 16 (k - 1 - j)

/-- The open slots are at most four consecutive HFNs up to that of the latest slot event (R97). -/
def RunsUpTo : Option FrameNo → List FrameNo → Prop
  | none, hs => hs = []
  | some h, hs => ∃ k, k ≤ 4 ∧ hs = lastHfns h k

/-- One section at most is filed under a key in a slot (R96). -/
def OncePerKey (w : List WindowSlot) : Prop := ∀ x ∈ w, (x.filed.map fun f => (f.group, f.pos, f.side)).Nodup

/-- What the law reads of the hub: the HFN of the latest slot event, and the window. -/
def State.windowView (s : State) : Option FrameNo × List WindowSlot := (s.fps.hfn, s.ucb.window)

/-- The law of a window after the slot event of an HFN. -/
structure WindowLaw (x : Option FrameNo × List WindowSlot) : Prop where
  slots : RunsUpTo x.1 (openSlots x.2)
  keys : OncePerKey x.2

theorem windowOk_iff (s : State) : s.windowOk ↔ WindowLaw s.windowView := by
  unfold State.windowOk
  split
  · next unslotted =>
    have runs : RunsUpTo s.fps.hfn (openSlots s.ucb.window) ↔ s.ucb.window = [] := by
      rw [unslotted]
      exact List.map_eq_nil_iff
    exact ⟨fun ⟨slots, keys⟩ => ⟨runs.2 slots, keys⟩, fun ⟨slots, keys⟩ => ⟨runs.1 slots, keys⟩⟩
  · next h slotted =>
    have runs : RunsUpTo s.fps.hfn (openSlots s.ucb.window) ↔ RunsUpTo (some h) (openSlots s.ucb.window) := by rw [slotted]
    exact ⟨fun ⟨slots, keys⟩ => ⟨runs.2 slots, keys⟩, fun ⟨slots, keys⟩ => ⟨runs.1 slots, keys⟩⟩

/-! ### What changes sections alone -/

/-- The same slots stay open, with one section under a key where there was one at most. -/
structure WindowKept (w w' : List WindowSlot) : Prop where
  slots : openSlots w' = openSlots w
  keys : OncePerKey w → OncePerKey w'

namespace WindowKept
variable {w w' w'' : List WindowSlot}

theorem refl (w : List WindowSlot) : WindowKept w w := ⟨rfl, id⟩

theorem trans (first : WindowKept w w') (last : WindowKept w' w'') : WindowKept w w'' :=
  ⟨last.slots.trans first.slots, last.keys ∘ first.keys⟩

/-- Sections withdrawn. -/
theorem filter (w : List WindowSlot) (p : Filed → Bool) : WindowKept w (w.map fun x => { x with filed := x.filed.filter p }) := by
  refine ⟨?_, fun once y hy => ?_⟩
  · simp only [openSlots, List.map_map, Function.comp_def]
  · obtain ⟨x, hx, rfl⟩ := List.mem_map.1 hy
    exact (once x hx).sublist (List.filter_sublist.map _)

/-- A section filed takes the place of one filed under its key (R80). -/
theorem fileSection (w : List WindowSlot) (e : FrameNo) (f : Filed) : WindowKept w (fileSection w e f) := by
  refine ⟨openSlots_fileSection w e f, fun once y hy => ?_⟩
  obtain ⟨x, hx, rfl⟩ := List.mem_map.1 hy
  split
  · rw [List.map_append, List.nodup_append]
    refine ⟨(once x hx).sublist (List.filter_sublist.map _), List.nodup_singleton _, fun key old key' new same => ?_⟩
    obtain rfl := List.mem_singleton.1 new
    obtain ⟨y, filed, rfl⟩ := List.mem_map.1 old
    obtain ⟨-, other⟩ := List.mem_filter.1 filed
    simp only [Prod.mk.injEq] at same
    rw [(y.under_iff _ _ _).2 same] at other
    cases other
  · exact once x hx

theorem foldl {β : Type} {step : Spans → β → Spans} (each : ∀ v x, WindowKept v.window (step v x).window) (xs : List β) :
    ∀ v : Spans, WindowKept v.window (xs.foldl step v).window := by
  induction xs with
  | nil => exact fun v => .refl v.window
  | cons x xs ih => exact fun v => (each v x).trans (ih _)

end WindowKept

/-! ### The works of the span interface -/

section Works
variable (v : Spans) (lal : Table Group 8) (g : GroupId) (k : Pos) (sd : Side)

theorem Spans.movePort_kept (p : SpanId) (vd : SpanVerdict) : WindowKept v.window (v.movePort lal p vd).window := by
  rw [Spans.movePort_eq]
  split
  · cases servedBy lal p with
    | none => exact .refl _
    | some x => rw [Option.elim_some, Spans.foldl_silence]; exact .filter _ _
  · exact .refl _

theorem Spans.windowTest_kept (h : SectionHeader) (rad : Radiator) (off : Int) (blocks : Table LaneBlock 32) :
    WindowKept v.window (v.windowTest g k sd h rad off blocks).window := by
  unfold Spans.windowTest
  dsimp only
  split
  · rw [Spans.takeReports_eq]; exact .fileSection _ _ _
  · split <;> exact .refl _

theorem Spans.consult_kept (h : SectionHeader) (rad : Radiator) (blocks : Table LaneBlock 32) :
    WindowKept v.window (v.consult g k sd h rad blocks).window := by
  have tested : ∀ (w : Spans) (off : Int), w.window = v.window → WindowKept v.window (w.windowTest g k sd h rad off blocks).window :=
    fun w off same => same ▸ w.windowTest_kept g k sd h rad off blocks
  unfold Spans.consult
  dsimp only
  split
  · exact .refl _
  · exact .refl _
  · exact tested _ 0 rfl
  · refine tested _ 0 ?_
    split <;> rfl
  · split
    · exact tested v _ rfl
    · exact .filter _ _

theorem Spans.examine_kept (p : SpanId) (bs : List Byte) : WindowKept v.window (Spans.examine lal p g sd v bs).window := by
  unfold Spans.examine
  split
  · exact .refl _
  · dsimp only
    split
    · exact v.consult_kept g _ sd _ _ _
    · exact .refl _

theorem Spans.frame_kept (p : SpanId) (bs : List Byte) : WindowKept v.window (v.frame lal p g sd bs).window := by
  unfold Spans.frame
  extract_lets good counted moved
  have ready : WindowKept v.window moved.window := counted.movePort_kept lal p _
  split
  · exact ready.trans (.foldl (fun w bs => w.examine_kept lal g sd p bs) _ moved)
  · exact ready

theorem Spans.missSlots_kept : WindowKept v.window (v.missSlots lal).window := by
  refine .foldl (fun w p => ?_) _ v
  unfold Spans.missPort
  split
  · dsimp only
    split
    · exact .refl _
    · have moved : ∀ t : Spans, t.window = w.window → WindowKept w.window (t.movePort lal p .bad).window :=
        fun t same => same ▸ t.movePort_kept lal p .bad
      exact moved _ rfl
  · exact .refl _

theorem Spans.close_kept (h : FrameNo) : WindowKept v.window (v.close lal h).window := by
  refine .foldl (fun w g => ?_) _ v
  by_cases unused : (configOf lal g).form = .unused
  · rw [Spans.closeGroup, if_pos unused]; exact .refl _
  · rw [Spans.closeGroup_of_served unused]; exact .filter _ _

theorem Spans.countMiss_kept (cfg : GroupConfig) (h : FrameNo) : WindowKept v.window (v.countMiss cfg h g k sd).window := by
  unfold Spans.countMiss
  dsimp only
  split
  · exact .filter _ _
  · exact .refl _

theorem Spans.resetPort_kept (p : SpanId) : WindowKept v.window (v.resetPort p g sd).window := by
  rw [Spans.resetPort_eq]
  exact .filter _ _

end Works

/-! ### The slot event moves the window on (R97) -/

theorem lastHfns_next (h : FrameNo) (k : Nat) : lastHfns (h + 1) (k + 1) = lastHfns h k ++ [h + 1] := by
  rw [lastHfns, List.range_succ, List.map_append, List.map_singleton]
  congr 1
  · refine List.map_congr_left fun j hj => ?_
    have earlier := List.mem_range.1 hj
    rw [show k + 1 - 1 - j = k - 1 - j + 1 by omega]
    bv_omega
  · simp

theorem lastHfns_earliest (h : FrameNo) (k : Nat) : lastHfns h (k + 1) = (h - BitVec.ofNat 16 k) :: lastHfns h k := by
  rw [lastHfns, List.range_succ_eq_map, List.map_cons, List.map_map]
  refine congrArg₂ _ rfl (List.map_congr_left fun j _ => ?_)
  rw [Function.comp, show k + 1 - 1 - j.succ = k - 1 - j by omega]

/-- Of three HFNs up to `h` none is four back from the next. -/
theorem lastHfns_filter_young {h : FrameNo} {k : Nat} (young : k ≤ 3) :
    (lastHfns h k).filter (fun e => e != h + 1 - 4) = lastHfns h k := by
  refine List.filter_eq_self.2 fun e he => ?_
  obtain ⟨j, hj, rfl⟩ := List.mem_map.1 he
  have earlier := List.mem_range.1 hj
  rw [bne_iff_ne]
  bv_omega

/-- The slot four back closes, if it is open, and the new slot opens: four at most stay open. -/
theorem RunsUpTo.next {p : Pacer} {hs : List FrameNo} (runs : RunsUpTo p.hfn hs) :
    RunsUpTo (some p.next) (hs.filter (fun e => e != p.next - 4) ++ [p.next]) := by
  unfold Pacer.next
  cases slotted : p.hfn with
  | none =>
    rw [slotted] at runs
    obtain rfl : hs = [] := runs
    exact ⟨1, by decide, rfl⟩
  | some h =>
    rw [slotted] at runs
    obtain ⟨k, few, rfl⟩ := runs
    obtain rfl | young := few.eq_or_lt
    · have closing : (h - BitVec.ofNat 16 3 != h + 1 - 4) = false := by
        rw [bne_eq_false_iff_eq]
        bv_omega
      refine ⟨4, le_rfl, ?_⟩
      rw [lastHfns_next, lastHfns_earliest, List.filter_cons, closing, lastHfns_filter_young le_rfl]
      rfl
    · exact ⟨k + 1, young, by rw [lastHfns_filter_young (Nat.le_of_lt_succ young), lastHfns_next]⟩

/-- A window as the slot event of `n` leaves it: slot n-4 closed, slot n open and empty. -/
def windowAfter (n : FrameNo) (w : List WindowSlot) : List WindowSlot := w.filter (fun x => x.hfn != n - 4) ++ [⟨n, []⟩]

theorem openSlots_windowAfter (n : FrameNo) (w : List WindowSlot) :
    openSlots (windowAfter n w) = (openSlots w).filter (fun e => e != n - 4) ++ [n] := by
  simp only [windowAfter, openSlots, List.map_append, List.map_cons, List.map_nil, List.filter_map, Function.comp_def]

theorem windowAfter_of_closed {n : FrameNo} {w : List WindowSlot} (closed : n - 4 ∉ openSlots w) :
    windowAfter n w = w ++ [⟨n, []⟩] := by
  rw [windowAfter, List.filter_eq_self.2 fun x hx => ?_]
  rw [bne_iff_ne]
  exact fun fourth => closed (fourth ▸ List.mem_map_of_mem hx)

theorem WindowLaw.kept {h : Option FrameNo} {w w' : List WindowSlot} (law : WindowLaw (h, w)) (kept : WindowKept w w') :
    WindowLaw (h, w') := by
  refine ⟨?_, kept.keys law.keys⟩
  rw [kept.slots]
  exact law.slots

theorem WindowLaw.next {p : Pacer} {w : List WindowSlot} (law : WindowLaw (p.hfn, w)) :
    WindowLaw (some p.next, windowAfter p.next w) := by
  refine ⟨?_, fun x hx => ?_⟩
  · rw [openSlots_windowAfter]
    exact law.slots.next
  · obtain old | new := List.mem_append.1 hx
    · exact law.keys x (List.mem_filter.1 old).1
    · obtain rfl := List.mem_singleton.1 new
      exact List.nodup_nil

/-- The combine window's part of a slot event. -/
theorem closeSlot_windowView (n : FrameNo) (ctb : Table Carrier 64) (lanes : Table Group 8) (s : State) :
    ∃ w, WindowKept s.ucb.window w ∧ (closeSlot n ctb lanes s).windowView = (s.fps.hfn, windowAfter n w) := by
  unfold closeSlot
  dsimp only
  split
  · exact ⟨_, s.spans.close_kept lanes (n - 4), rfl⟩
  · next closed =>
    refine ⟨_, .refl _, ?_⟩
    rw [windowAfter_of_closed (mt List.contains_iff_mem.2 closed)]
    rfl

/-- The works of a slot, in any order: the sections of ports that miss go, and the window moves on. -/
theorem works_windowView (o : WorkOrder) (i : MixInput) (s : State) :
    ∃ w, WindowKept s.ucb.window w ∧ (works o i s).windowView = (s.fps.hfn, windowAfter i.hfn w) := by
  have spans : ∀ t : State, t.windowView = s.windowView →
      ∃ w, WindowKept s.ucb.window w ∧ (spanWork i t).windowView = (s.fps.hfn, windowAfter i.hfn w) := by
    intro t same
    obtain ⟨hfn, window⟩ := Prod.mk.inj same
    obtain ⟨w, closed, view⟩ := closeSlot_windowView i.hfn i.pre.ctb i.lanes (t.withSpans (t.spans.missSlots t.lal))
    rw [← window, ← hfn]
    exact ⟨w, (t.spans.missSlots_kept t.lal).trans closed, view⟩
  have mixer : ∀ t, (mixerWork i t).windowView = t.windowView := fun _ => rfl
  have players : ∀ t, (playerWork i t).windowView = t.windowView := fun _ => rfl
  cases o with
  | mixerSpanPlayers => rw [works, players]; exact spans _ (mixer s)
  | mixerPlayersSpan => exact spans _ ((players _).trans (mixer s))
  | spanMixerPlayers => rw [works, players, mixer]; exact spans s rfl
  | spanPlayersMixer => rw [works, mixer, players]; exact spans s rfl
  | playersMixerSpan => exact spans _ ((mixer _).trans (players s))
  | playersSpanMixer => rw [works, mixer]; exact spans _ (players s)

theorem slotWorked_windowLaw (ord : SlotOrder) {s : State} (law : WindowLaw s.windowView) :
    WindowLaw (slotWorked s.fps.next ord s).windowView := by
  let c := openSlot s.fps.next ord s
  obtain ⟨w, kept, view⟩ := works_windowView ord.works (slotInput s.fps.next s c.2.active) c.1
  have sent : (slotWorked s.fps.next ord s).windowView = (some s.fps.next, windowAfter s.fps.next w) := view
  rw [sent]
  exact WindowLaw.next (p := s.fps) (law.kept kept)

/-! ### Requests -/

section Requests
variable (n : Nat) (s : State)

theorem carset_windowView (a : CarsetArgs) : (carset a s).state.windowView = s.windowView := by
  unfold carset
  split
  · dsimp only
    split
    · split <;> rfl
    · rfl
  · rfl

theorem caron_windowView : (caron n s).state.windowView = s.windowView := by
  unfold caron
  split
  · rfl
  · split <;> rfl

theorem caroff_windowView : (caroff n s).state.windowView = s.windowView := by
  unfold caroff
  split
  · rfl
  · split <;> rfl

theorem carclr_windowView : (carclr n s).state.windowView = s.windowView := by
  unfold carclr
  split
  · rfl
  · split <;> rfl

theorem trim_windowView (g v : Nat) : (trim n g v s).state.windowView = s.windowView := by
  unfold trim
  split
  · dsimp only
    split
    · rfl
    · split <;> rfl
  · rfl

theorem incidentEvent_windowView (cause : IncidentCause) (mask : Nat) : (incidentEvent cause mask s).windowView = s.windowView := by
  rw [incidentEvent_eq, State.windowView, State.withBku_fps, State.withBku_ucb, State.withAlloc_fps, State.withAlloc_ucb]
  rfl

theorem changeLevels_windowView (cause : IncidentCause) (i : Incident) : (changeLevels cause i s).windowView = s.windowView := by
  unfold changeLevels
  dsimp only
  split
  · rfl
  · exact incidentEvent_windowView _ _ _

theorem incclr_windowView : (incclr s).state.windowView = s.windowView := by
  unfold incclr
  split
  · rfl
  · exact changeLevels_windowView _ _ _

theorem profset_windowView (a : ProfsetArgs) : (profset a s).state.windowView = s.windowView := by
  unfold profset
  split
  · dsimp only
    split
    · exact incidentEvent_windowView _ _ _
    · rfl
  · rfl

theorem annc_windowView (a : AnncArgs) : (annc a s).state.windowView = s.windowView := by
  unfold annc
  split
  · rfl
  · repeat (split; · rfl)
    rfl

theorem ancan_windowView : (ancan n s).state.windowView = s.windowView := by
  unfold ancan
  split
  · rfl
  · split <;> rfl

theorem pgopen_windowView : (pgopen n s).state.windowView = s.windowView := by
  unfold pgopen
  split <;> rfl

theorem pgdata_windowView (bs : List Byte) : (pgdata n bs s).state.windowView = s.windowView := by
  unfold pgdata
  split
  · rfl
  · split
    · rfl
    · split <;> rfl

theorem pgcommit_windowView : (pgcommit s).state.windowView = s.windowView := by
  unfold pgcommit
  split
  · rfl
  · split <;> rfl

theorem blkerase_windowView : (blkerase n s).state.windowView = s.windowView := by
  unfold blkerase
  split
  · rfl
  · split <;> rfl

theorem blkguard_windowView (bar : Nat) : (blkguard n bar s).state.windowView = s.windowView := by
  unfold blkguard
  split
  · rfl
  · split
    · rfl
    · split <;> rfl
  · rfl

theorem msgdef_windowView (a : MsgdefArgs) : (msgdef a s).state.windowView = s.windowView := by
  unfold msgdef
  split <;> rfl

theorem msgclr_windowView : (msgclr n s).state.windowView = s.windowView := by
  unfold msgclr
  split
  · rfl
  · split <;> rfl

theorem trksel_windowView : (trksel n s).state.windowView = s.windowView := by
  unfold trksel
  split
  · rfl
  · dsimp only
    split
    · rfl
    · split <;> rfl

theorem save_windowView : (save s).state.windowView = s.windowView := by
  unfold save
  split <;> rfl

theorem restart_windowView : (restart n s).state.windowView = s.windowView := by
  unfold restart
  split
  · rfl
  · split <;> rfl

end Requests

/-! ### The law, part by part -/

theorem WindowLaw.of_eq {x y : Option FrameNo × List WindowSlot} (law : WindowLaw x) (same : y = x) : WindowLaw y := same ▸ law

theorem WindowLaw.withSpans {s : State} {v : Spans} (law : WindowLaw s.windowView) (kept : WindowKept s.spans.window v.window) :
    WindowLaw (s.withSpans v).windowView := law.kept kept

theorem grpset_windowLaw (a : GrpsetArgs) {s : State} (law : WindowLaw s.windowView) : WindowLaw (grpset a s).state.windowView := by
  by_cases unnamed : 8 ≤ a.group ∨ codeForm a.form = none
  · rw [grpset_of_unnamed unnamed]; exact law
  · obtain ⟨near, form⟩ := not_or.1 unnamed
    obtain ⟨form, named⟩ := Option.ne_none_iff_exists'.1 form
    let g : GroupId := ⟨a.group, not_le.1 near⟩
    cases checks : grpsetRefusal s g a form with
    | some st => rw [grpset_of_refusal (g := g) rfl named checks]; exact law
    | none =>
      rw [grpset_of_pass (g := g) rfl named checks, okWith]
      dsimp only
      split
      · rw [setUpAnew_eq]; exact law.kept (.filter _ _)
      · exact law

theorem sprst_windowLaw (n : Nat) {s : State} (law : WindowLaw s.windowView) : WindowLaw (sprst n s).state.windowView := by
  unfold sprst
  split
  · exact law
  · next p _ =>
    split
    · exact law
    · next g sd _ => exact law.withSpans (s.spans.resetPort_kept g sd p)

theorem requestAct_windowLaw (v : State → State) (r : Request) {s : State} (law : WindowLaw s.windowView) :
    WindowLaw (requestAct v r s).state.windowView := by
  cases r with
  | rdrec sel part => exact law.of_eq (congrArg State.windowView (rdrecOf_state (v s) sel part s))
  | carset a => exact law.of_eq (carset_windowView s a)
  | caron n => exact law.of_eq (caron_windowView n s)
  | caroff n => exact law.of_eq (caroff_windowView n s)
  | carclr n => exact law.of_eq (carclr_windowView n s)
  | trim n g x => exact law.of_eq (trim_windowView n s g x)
  | grpset a => exact grpset_windowLaw a law
  | sprst n => exact sprst_windowLaw n law
  | incset n => exact law.of_eq (changeLevels_windowView s _ _)
  | incclr => exact law.of_eq (incclr_windowView s)
  | profset a => exact law.of_eq (profset_windowView s a)
  | annc a => exact law.of_eq (annc_windowView s a)
  | ancan n => exact law.of_eq (ancan_windowView n s)
  | voxset a => exact law
  | pgopen n => exact law.of_eq (pgopen_windowView n s)
  | pgdata off bs => exact law.of_eq (pgdata_windowView off s bs)
  | pgcommit => exact law.of_eq (pgcommit_windowView s)
  | blkerase n => exact law.of_eq (blkerase_windowView n s)
  | blkguard n bar => exact law.of_eq (blkguard_windowView n s bar)
  | msgdef a => exact law.of_eq (msgdef_windowView s a)
  | msgclr n => exact law.of_eq (msgclr_windowView n s)
  | trksel n => exact law.of_eq (trksel_windowView n s)
  | timset limit x => exact law
  | save => exact law.of_eq (save_windowView s)
  | restart n => exact law.of_eq (restart_windowView n s)
  | causeclr => exact law

theorem serve_windowLaw (v : State → State) (p : TrunkId) (tag : Nat) (r : Request) {s : State} (law : WindowLaw s.windowView) :
    WindowLaw (serve p tag (requestCode r) (requestAct v r) s).windowView := by
  unfold serve
  obtain ⟨-, refused⟩ | ⟨-, -, -, refused⟩ | ⟨-, -, heard⟩ := check_cases p tag (requestCode r) (requestAct v r) s
  · rw [refused]; exact law
  · rw [refused]; exact law
  · rw [heard]; exact requestAct_windowLaw v r law

/-! ### The slot event, whole -/

theorem takeFrameCell_windowLaw (v : State → State) (p : TrunkId) (f : Option (List Byte)) {s : State} (law : WindowLaw s.windowView) :
    WindowLaw (takeFrameCell v p f s).windowView := by
  unfold takeFrameCell
  split
  · unfold takeCell
    split
    · exact law
    · exact law
    · exact law
    · exact serve_windowLaw v p _ _ law
  · exact law

/-- What line sample and cells each keep, the tail of a slot keeps, whatever their order. -/
theorem tail_keeps {law : State → Prop} (o : TailOrder) {line reqA reqB : State → State} (hl : ∀ {s}, law s → law (line s))
    (ha : ∀ {s}, law s → law (reqA s)) (hb : ∀ {s}, law s → law (reqB s)) {s : State} (hs : law s) : law (tail o line reqA reqB s) := by
  cases o with
  | lineAB => exact hb (ha (hl hs))
  | lineBA => exact ha (hb (hl hs))
  | aLineB => exact hb (hl (ha hs))
  | bLineA => exact ha (hl (hb hs))
  | abLine => exact hl (hb (ha hs))
  | baLine => exact hl (ha (hb hs))

theorem slotEvent_windowLaw (line : Bool) (ord : SlotOrder) {s : State} (law : WindowLaw s.windowView) :
    WindowLaw (slotEvent s.fps.next line ord s).windowView := by
  have sample : ∀ {t : State}, WindowLaw t.windowView → WindowLaw (lineSample s.fps.next line t).windowView :=
    fun law => law.of_eq (changeLevels_windowView _ _ _)
  exact tail_keeps (law := fun t => WindowLaw t.windowView) ord.tail sample (takeFrameCell_windowLaw (earlyView ord s) .a _)
    (takeFrameCell_windowLaw (earlyView ord s) .b _) (slotWorked_windowLaw ord law)

/-! ### Resets and start-up -/

theorem resetBlocks_windowLaw (keep : Bool) (causes : CauseRecord) (s : State) : WindowLaw (resetBlocks keep causes s).windowView :=
  ⟨rfl, fun _ none => nomatch none⟩

theorem startUp_windowView (outcome : SettingsOutcome) (ids : List CarrierId) (s : State) :
    (startUp outcome ids s).windowView = s.windowView := rfl

theorem startUpLoading_windowLaw {s : State} (law : WindowLaw s.windowView) : WindowLaw (startUpLoading s).windowView := by
  unfold startUpLoading
  split
  · exact law.of_eq (startUp_windowView _ _ _)
  · next x _ => exact law.of_eq (startUp_windowView _ _ (s.load x))

theorem restartNow_windowLaw (f : RestartForm) (s : State) : WindowLaw (restartNow f s).windowView := by
  cases f with
  | keep => exact (resetBlocks_windowLaw true _ s).of_eq (startUp_windowView _ _ _)
  | reload => exact startUpLoading_windowLaw (resetBlocks_windowLaw false _ s)

theorem restartTakesEffect_windowLaw {s : State} (law : WindowLaw s.windowView) : WindowLaw (restartTakesEffect s).windowView := by
  unfold restartTakesEffect
  split
  · exact restartNow_windowLaw _ s
  · exact law

theorem lineReset_windowLaw {s : State} (law : WindowLaw s.windowView) : WindowLaw (lineReset s).windowView := by
  unfold lineReset
  split
  · exact law
  · exact resetBlocks_windowLaw false s.mga.causes.lineReset s

theorem leaveReset_windowLaw {s : State} (law : WindowLaw s.windowView) : WindowLaw (leaveReset s).windowView := by
  unfold leaveReset
  split
  · exact law
  · exact startUpLoading_windowLaw law

theorem resetInputRelease_windowLaw {s : State} (law : WindowLaw s.windowView) : WindowLaw (resetInputRelease s).windowView := by
  unfold resetInputRelease
  split
  · exact leaveReset_windowLaw (s := { s with pins := { s.pins with resetInput := false } }) law
  · exact law

theorem suppliesSteady_windowLaw {s : State} (law : WindowLaw s.windowView) : WindowLaw (suppliesSteady s).windowView := by
  unfold suppliesSteady
  split
  · exact leaveReset_windowLaw (s := { s with pins := { s.pins with powerHold := false } }) law
  · exact law

/-! ### Events -/

section Events
variable (s : State)

theorem holdoverExpiry_windowView : (holdoverExpiry s).windowView = s.windowView := by
  have hfn : s.fps.countHold.1.hfn = s.fps.hfn := by
    unfold Pacer.countHold
    split
    · split <;> rfl
    · rfl
  unfold holdoverExpiry
  split
  · exact congrArg (·, s.ucb.window) hfn
  · rfl

theorem laneGuardExpiry_windowView (g : GroupId) (l : LaneId) : (laneGuardExpiry g l s).windowView = s.windowView := by
  rw [laneGuardExpiry_eq]
  split <;> rfl

theorem overBudget_windowView (g : GroupId) : (overBudget g s).windowView = s.windowView := by
  rw [overBudget_eq]
  dsimp only
  split <;> rfl

theorem hangExpiry_windowView (g : GroupId) (l : LaneId) (k : Pos) : (hangExpiry g l k s).windowView = s.windowView := by
  rw [hangExpiry_eq]
  split <;> rfl

theorem fadeEnd_windowView (id : PlayerId) : (fadeEnd id s).windowView = s.windowView := by
  unfold fadeEnd
  dsimp only
  split
  · split <;> rfl
  · split <;> rfl
  · rfl

theorem gapEnd_windowView (id : PlayerId) : (gapEnd id s).windowView = s.windowView := by
  unfold gapEnd
  dsimp only
  split <;> rfl

theorem liveSpeechLoss_windowView (id : PlayerId) : (liveSpeechLoss id s).windowView = s.windowView := by
  unfold liveSpeechLoss
  dsimp only
  split <;> rfl

theorem storeProgramCompletion_windowView (r : StoreResult) : (storeProgramCompletion r s).windowView = s.windowView := by
  unfold storeProgramCompletion
  split <;> rfl

theorem storeEraseCompletion_windowView (r : StoreResult) : (storeEraseCompletion r s).windowView = s.windowView := by
  unfold storeEraseCompletion
  split <;> rfl

theorem settingsSaveCompletion_windowView (r : StoreResult) : (settingsSaveCompletion r s).windowView = s.windowView := by
  unfold settingsSaveCompletion
  split <;> rfl

end Events

theorem missLimitReached_windowLaw (g : GroupId) (k : Pos) (sd : Side) {s : State} (law : WindowLaw s.windowView) :
    WindowLaw (missLimitReached g k sd s).windowView := by
  unfold missLimitReached
  dsimp only
  split
  · exact law.withSpans (s.spans.countMiss_kept g k sd _ _)
  · exact law

theorem spanUplinkFrameArrival_windowLaw (p : SpanId) (bs : List Byte) {s : State} (law : WindowLaw s.windowView) :
    WindowLaw (spanUplinkFrameArrival p bs s).windowView := by
  unfold spanUplinkFrameArrival
  split
  · exact law.withSpans (s.spans.frame_kept s.lal _ _ p bs)
  · exact law

/-! ### The step -/

theorem slot_windowLaw (line : Bool) (ord : SlotOrder) {s : State} (law : WindowLaw s.windowView) :
    WindowLaw (slot line ord s).windowView := by
  unfold slot
  split
  · exact restartNow_windowLaw _ s
  · exact slotEvent_windowLaw line ord law

theorem requestCommand_windowLaw {p : TrunkId} {tag : Nat} {s t : State} (law : WindowLaw s.windowView) (r : Request)
    (h : requestCommand p tag (requestCode r) (requestAct id r) s = .next t) : WindowLaw t.windowView := by
  cases h
  split
  · exact law
  · exact serve_windowLaw id p tag r law

theorem eventCommand_windowLaw {act : State → State} {s t : State} (law : WindowLaw s.windowView)
    (event : WindowLaw s.windowView → WindowLaw (act s).windowView) (h : eventCommand act s = .next t) : WindowLaw t.windowView := by
  cases h
  split
  · exact law
  · exact event law

/-- Any command: the window moves on in the slot event of the next HFN alone. -/
theorem exec_windowLaw {i : Instr} {s t : State} (law : WindowLaw s.windowView) (h : exec i s = .next t) : WindowLaw t.windowView := by
  cases i with
  | slot line order => exact eventCommand_windowLaw law (slot_windowLaw line order) h
  | holdoverExpiry => exact eventCommand_windowLaw law (·.of_eq (holdoverExpiry_windowView s)) h
  | laneGuardExpiry g l => exact eventCommand_windowLaw law (·.of_eq (laneGuardExpiry_windowView s g l)) h
  | overBudget g => exact eventCommand_windowLaw law (·.of_eq (overBudget_windowView s g)) h
  | missLimitReached g k sd => exact eventCommand_windowLaw law (missLimitReached_windowLaw g k sd) h
  | hangExpiry g l k => exact eventCommand_windowLaw law (·.of_eq (hangExpiry_windowView s g l k)) h
  | fadeEnd p => exact eventCommand_windowLaw law (·.of_eq (fadeEnd_windowView s p)) h
  | gapEnd p => exact eventCommand_windowLaw law (·.of_eq (gapEnd_windowView s p)) h
  | liveSpeechLoss p => exact eventCommand_windowLaw law (·.of_eq (liveSpeechLoss_windowView s p)) h
  | trunkFrameArrival p f => exact eventCommand_windowLaw (act := trunkFrameArrival p f) law id h
  | spanUplinkFrameArrival p f => exact eventCommand_windowLaw law (spanUplinkFrameArrival_windowLaw p f) h
  | rdrec p tag sel part => exact requestCommand_windowLaw law (.rdrec sel part) h
  | carset p tag a => exact requestCommand_windowLaw law (.carset a) h
  | caron p tag n => exact requestCommand_windowLaw law (.caron n) h
  | caroff p tag n => exact requestCommand_windowLaw law (.caroff n) h
  | carclr p tag n => exact requestCommand_windowLaw law (.carclr n) h
  | trim p tag n g v => exact requestCommand_windowLaw law (.trim n g v) h
  | grpset p tag a => exact requestCommand_windowLaw law (.grpset a) h
  | sprst p tag n => exact requestCommand_windowLaw law (.sprst n) h
  | incset p tag n => exact requestCommand_windowLaw law (.incset n) h
  | incclr p tag => exact requestCommand_windowLaw law .incclr h
  | profset p tag a => exact requestCommand_windowLaw law (.profset a) h
  | annc p tag a => exact requestCommand_windowLaw law (.annc a) h
  | ancan p tag n => exact requestCommand_windowLaw law (.ancan n) h
  | voxset p tag a => exact requestCommand_windowLaw law (.voxset a) h
  | pgopen p tag n => exact requestCommand_windowLaw law (.pgopen n) h
  | pgdata p tag off bs => exact requestCommand_windowLaw law (.pgdata off bs) h
  | pgcommit p tag => exact requestCommand_windowLaw law .pgcommit h
  | blkerase p tag n => exact requestCommand_windowLaw law (.blkerase n) h
  | blkguard p tag n bar => exact requestCommand_windowLaw law (.blkguard n bar) h
  | msgdef p tag a => exact requestCommand_windowLaw law (.msgdef a) h
  | msgclr p tag n => exact requestCommand_windowLaw law (.msgclr n) h
  | trksel p tag n => exact requestCommand_windowLaw law (.trksel n) h
  | timset p tag limit v => exact requestCommand_windowLaw law (.timset limit v) h
  | save p tag => exact requestCommand_windowLaw law .save h
  | restart p tag n => exact requestCommand_windowLaw law (.restart n) h
  | causeclr p tag => exact requestCommand_windowLaw law .causeclr h
  | storeProgramCompletion r => exact eventCommand_windowLaw law (·.of_eq (storeProgramCompletion_windowView s r)) h
  | storeEraseCompletion r => exact eventCommand_windowLaw law (·.of_eq (storeEraseCompletion_windowView s r)) h
  | settingsSaveCompletion r => exact eventCommand_windowLaw law (·.of_eq (settingsSaveCompletion_windowView s r)) h
  | powerOn => cases h; exact resetBlocks_windowLaw false .poweredOn s
  | lineReset => cases h; exact lineReset_windowLaw law
  | restartTakesEffect => exact eventCommand_windowLaw law restartTakesEffect_windowLaw h
  | resetInputRelease => cases h; exact resetInputRelease_windowLaw law
  | suppliesSteady => cases h; exact suppliesSteady_windowLaw law

end Sys2Proof.Machine

namespace Sys2Proof.Proofs
open Sys2Proof Sys2Proof.Machine

/-- Settles O56: sections are filed in place of those under their key and withdrawn, and neither opens nor closes a slot. The slot event of the
next HFN alone does: it drops the HFN four back where four stand, and appends its own; a reset leaves no HFN and no slot. -/
theorem stepKeepsCombineWindow : Obligations.StepKeepsCombineWindow := by
  intro s t law h
  rw [windowOk_iff] at law ⊢
  unfold step at h
  split at h
  · cases h; exact law
  · next rest _ => exact exec_windowLaw (s := { s with pending := rest }) law h

end Sys2Proof.Proofs
end

section
/-! Squelch gates and sums at a close (R100 to R109): the rows of Table 5-3, the owner that a lane is summed for, the contributions of a carrier,
and where its sum goes. -/
namespace Sys2Proof.Machine

/-! ### Table 5-3 -/

section Table53
variable {q : Gate} {p o k : Nat} (h : Nat)

theorem Gate.update_of_loud (ordered : k ≤ o) (loud : o ≤ p) : q.update p o k h = ⟨.opened, 0⟩ := by
  unfold Gate.update
  split
  · exact if_pos loud
  · exact if_pos (ordered.trans loud)
  · exact if_pos (ordered.trans loud)

theorem Gate.update_of_between (close : k ≤ p) (quiet : p < o) :
    q.update p o k h = if q.state = .closed then ⟨.closed, 0⟩ else ⟨.opened, 0⟩ := by
  unfold Gate.update
  split
  · next closed => rw [if_neg (not_le.2 quiet), if_pos closed]
  · next opened => rw [if_pos close, opened]; rfl
  · next hang => rw [if_pos close, hang]; rfl

theorem Gate.update_closed_of_quiet (closed : q.state = .closed) (quiet : p < o) : q.update p o k h = ⟨.closed, 0⟩ := by
  simp only [Gate.update, closed, if_neg (not_le.2 quiet)]

theorem Gate.update_opened_of_quiet (opened : q.state = .opened) (quiet : p < k) :
    q.update p o k h = if h = 0 then ⟨.closed, 0⟩ else ⟨.hang, h⟩ := by
  simp only [Gate.update, opened, if_neg (not_le.2 quiet)]

theorem Gate.update_hang_of_quiet (hang : q.state = .hang) (quiet : p < k) :
    q.update p o k h = if q.hang ≤ 1 then ⟨.closed, 0⟩ else ⟨.hang, q.hang - 1⟩ := by
  simp only [Gate.update, hang, if_neg (not_le.2 quiet), Gate.expire]

theorem Gate.passes_eq (q : Gate) : q.passes = (q.state != .closed) := by
  rw [Gate.passes, bne, Bool.beq_eq_decide_eq, decide_not]

end Table53

theorem GroupConfig.configured_eq (cfg : GroupConfig) (k : Pos) :
    cfg.configured k = (cfg.form != .unused && decide (k.val < cfg.remotes)) := by
  rw [Bool.eq_iff_iff, configured_iff, Bool.and_eq_true, bne_iff_ne, decide_eq_true_eq]

/-! ### Lists with one member of a kind -/

theorem filter_eq_toList_find? {α : Type} {xs : List α} {p : α → Bool} (nodup : xs.Nodup)
    (one : ∀ a b, p a = true → p b = true → a = b) : xs.filter p = (xs.find? p).toList := by
  rw [← List.head?_filter]
  have distinct := nodup.filter p
  have passed : ∀ a ∈ xs.filter p, p a = true := fun a ha => (List.mem_filter.1 ha).2
  match xs.filter p, distinct, passed with
  | [], _, _ => rfl
  | [a], _, _ => rfl
  | a :: b :: rest, distinct, passed =>
    have same := one a b (passed a (by simp)) (passed b (by simp))
    simp [same] at distinct

theorem filterMap_eq_singleton {α β : Type} {xs : List α} {f : α → Option β} {a : α} {b : β} (nodup : xs.Nodup) (mem : a ∈ xs)
    (own : f a = some b) (others : ∀ x, x ≠ a → f x = none) : xs.filterMap f = [b] := by
  obtain ⟨before, after, rfl⟩ := List.append_of_mem mem
  obtain ⟨-, apart, distinct⟩ := List.nodup_append.1 nodup
  have first : before.filterMap f = [] := List.filterMap_eq_nil_iff.2 fun x hx => others x (distinct x hx a (by simp))
  have last : after.filterMap f = [] := List.filterMap_eq_nil_iff.2 fun x hx => others x fun e =>
    (List.nodup_cons.1 apart).1 (e ▸ hx)
  rw [List.filterMap_append, List.filterMap_cons_some own, first, last, List.nil_append]

/-! ### The gates of a lane (R101) -/

namespace CloseInput
variable {i : CloseInput} {gates : Gates} {g : GroupId} {l : LaneId} {k : Pos} {c : CarrierId}

/-- Carrier `c` owns lane `l` of group `g`, which is LIVE. -/
def owns (i : CloseInput) (c : CarrierId) (g : GroupId) (l : LaneId) : Bool :=
  ((i.lanes.get g).lanes.get l).state == .live && ((i.lanes.get g).lanes.get l).owner == some c

theorem owns_iff : i.owns c g l = true ↔
    ((i.lanes.get g).lanes.get l).state = .live ∧ ((i.lanes.get g).lanes.get l).owner = some c := by
  rw [owns, Bool.and_eq_true, beq_iff_eq, beq_iff_eq]

theorem summedOwner_of_owns (owned : i.owns c g l = true) (dest : (i.ctb.get c).fields.ulDest.isSome) :
    i.summedOwner g l = some c := by
  obtain ⟨live, owner⟩ := owns_iff.1 owned
  simp only [summedOwner, live, owner, dest, if_true]

theorem summedOwner_of_undirected (undirected : ∀ c, i.owns c g l = true → (i.ctb.get c).fields.ulDest = none) :
    i.summedOwner g l = none := by
  unfold summedOwner
  dsimp only
  split
  · next c live owner => rw [undirected c (owns_iff.2 ⟨live, owner⟩)]; rfl
  · rfl

/-- The gate of a remote that a sum may hear. -/
theorem gate_of_summed (owner : i.summedOwner g l = some c) (used : (i.lanes.get g).config.configured k = true) :
    i.gate gates g l k =
      if ((i.remotes.get g).get k).inService then
        (((gates.get g).get l).get k).update (((i.handed g k).map fun x => power (x.blocks.get l)).getD 0)
          (i.ctb.get c).fields.sqOpen (i.ctb.get c).fields.sqClose (i.ctb.get c).fields.hang
      else ⟨.closed, 0⟩ := by
  simp only [gate, owner, used, Bool.not_true, Bool.false_eq_true, if_false]
  cases ((i.remotes.get g).get k).inService with
  | true => cases i.handed g k <;> rfl
  | false => rfl

theorem gate_of_spare (spare : (i.lanes.get g).config.configured k = false) : i.gate gates g l k = ((gates.get g).get l).get k := by
  unfold gate
  dsimp only
  split
  · rfl
  · rw [spare]; rfl

theorem gate_of_unsummed (unsummed : i.summedOwner g l = none) : i.gate gates g l k = ((gates.get g).get l).get k := by
  simp only [gate, unsummed]

theorem gates_get (i : CloseInput) (gates : Gates) (g : GroupId) (l : LaneId) (k : Pos) :
    (((i.gates gates).get g).get l).get k = i.gate gates g l k := by
  simp only [CloseInput.gates, Table.get_make]

/-! ### Contributions (R104, R105) -/

theorem contribution_eq (i : CloseInput) (gates : Gates) (g : GroupId) (l : LaneId) (k : Pos) :
    i.contribution gates g l k =
      if ((i.lanes.get g).config.form != .unused && decide (k.val < (i.lanes.get g).config.remotes)) &&
          ((i.remotes.get g).get k).inService && (((gates.get g).get l).get k).state != .closed then
        (i.handed g k).map fun x => x.blocks.get l
      else none := by
  rw [contribution, GroupConfig.configured_eq, Gate.passes_eq]

theorem liveLane_eq (i : CloseInput) (g : GroupId) (c : CarrierId) : i.liveLane g c = (List.finRange 32).find? (i.owns c g) := by
  refine congrArg (List.find? · _) (funext fun l => ?_)
  rw [Bool.eq_iff_iff, owns_iff, Bool.and_eq_true, decide_eq_true_eq, decide_eq_true_eq]

/-- A carrier owns at most one lane of a group (R28), so that its LIVE lanes are the one in each group that the model looks for. -/
theorem contributions_eq (one : ∀ (g : GroupId) (l m : LaneId), i.owns c g l = true → i.owns c g m = true → l = m) (gates : Gates) :
    i.contributions gates c = (List.finRange 8).flatMap fun g => ((List.finRange 32).filter (i.owns c g)).flatMap fun l =>
      (List.finRange 6).filterMap fun k => i.contribution gates g l k := by
  refine List.flatMap_congr fun g _ => ?_
  rw [filter_eq_toList_find? (List.nodup_finRange 32) (one g), ← liveLane_eq]
  cases i.liveLane g c with
  | none => rfl
  | some l => exact (List.flatMap_singleton _ _).symm

/-! ### The sum of a carrier (R104 to R107) -/

/-- The sum formed for carrier `c` with uplink destination `t`. -/
def formed (i : CloseInput) (gates : Gates) (c : CarrierId) (t : TrunkLane) : CarrierSum :=
  let bs := i.contributions gates c
  let u := uplinkBlock bs (i.ctb.get c).fields.ulGain
  ⟨c, t, combinedBlock bs, u.1, bs.length, u.2⟩

theorem sum_eq_some_iff {x : CarrierSum} : i.sum gates c = some x ↔
    (i.ctb.get c).state = .active ∧ ∃ t, (i.ctb.get c).fields.ulDest = some t ∧ i.formed gates c t = x := by
  unfold CloseInput.sum
  dsimp only
  split
  · next t active dest =>
    refine ⟨fun own => ⟨active, t, dest, Option.some.inj own⟩, fun ⟨_, _, same, own⟩ => ?_⟩
    obtain rfl := Option.some.inj (dest.symm.trans same)
    exact congrArg some own
  · next other => exact ⟨fun own => (nomatch own), fun ⟨active, t, dest, _⟩ => (other t active dest).elim⟩

theorem sum_of_active {t : TrunkLane} (active : (i.ctb.get c).state = .active) (dest : (i.ctb.get c).fields.ulDest = some t) :
    i.sum gates c = some (i.formed gates c t) := sum_eq_some_iff.2 ⟨active, t, dest, rfl⟩

theorem sum_of_unsummed (unsummed : ¬((i.ctb.get c).state = .active ∧ (i.ctb.get c).fields.ulDest.isSome)) : i.sum gates c = none := by
  refine Option.eq_none_iff_forall_ne_some.2 fun x own => unsummed ?_
  obtain ⟨active, t, dest, -⟩ := sum_eq_some_iff.1 own
  exact ⟨active, dest ▸ rfl⟩

/-! ### Where a sum goes (R107, R108) -/

/-- Of the carriers summed at the close, `c` alone goes to trunk lane `t`. -/
theorem sums_filter_dest {t : TrunkLane} (active : (i.ctb.get c).state = .active) (dest : (i.ctb.get c).fields.ulDest = some t)
    (alone : ∀ d, d ≠ c → (i.ctb.get d).state = .active → (i.ctb.get d).fields.ulDest ≠ some t) (gates : Gates) :
    (i.sums gates).filter (fun x => x.dest = t) = [i.formed gates c t] := by
  rw [sums, List.filter_filterMap]
  refine filterMap_eq_singleton (List.nodup_finRange 64) (List.mem_finRange c) ?_ fun d other => ?_
  · rw [sum_of_active active dest]
    exact if_pos (decide_eq_true rfl)
  · refine Option.filter_eq_none_iff.2 fun x own => ?_
    obtain ⟨activeToo, t', destToo, rfl⟩ := sum_eq_some_iff.1 own
    rw [decide_eq_true_eq]
    rintro rfl
    exact alone d other activeToo destToo

theorem sums_find?_dest_none {t : TrunkLane} (free : ∀ c, (i.ctb.get c).state = .active → (i.ctb.get c).fields.ulDest ≠ some t)
    (gates : Gates) : (i.sums gates).find? (fun x => x.dest = t) = none := by
  refine List.find?_eq_none.2 fun x hx => ?_
  obtain ⟨c, -, own⟩ := List.mem_filterMap.1 hx
  obtain ⟨active, t', dest, rfl⟩ := sum_eq_some_iff.1 own
  rw [decide_eq_true_eq]
  rintro rfl
  exact free c active dest

end CloseInput

/-- A notice is a CLIP of trunk lane `t`. -/
def Notice.clipsTrunk (t : TrunkLane) : Notice → Bool
  | .clipTrunk a _ _ => a == t
  | _ => false

/-- The CLIPs of a trunk lane are those of the sums that go to it. -/
theorem clipNotices_filter (t : TrunkLane) (xs : List CarrierSum) :
    (clipNotices xs).filter (Notice.clipsTrunk t) = clipNotices (xs.filter fun x => x.dest = t) := by
  rw [clipNotices, clipNotices, List.filter_filterMap, List.filterMap_filter]
  refine congrArg (List.filterMap · xs) (funext fun x => ?_)
  by_cases whole : x.saturated = 0
  · simp [whole]
  · by_cases own : x.dest = t
    · simp [whole, own, Notice.clipsTrunk]
    · simp [whole, own, Notice.clipsTrunk]

theorem clipNotices_singleton (x : CarrierSum) :
    clipNotices [x] = if x.saturated = 0 then [] else [.clipTrunk x.dest x.carrier x.saturated] := by
  rw [clipNotices, List.filterMap_cons, List.filterMap_nil]
  by_cases whole : x.saturated = 0
  · rw [if_pos whole, if_pos whole]
  · rw [if_neg whole, if_neg whole]

theorem uplinkLanes_get (xs : List CarrierSum) (t : TrunkLane) :
    (uplinkLanes xs).get t = ((xs.find? fun x => x.dest = t).map (·.uplink)).getD zeroBlock := by
  rw [uplinkLanes, Table.get_make]
  cases xs.find? fun x => x.dest = t <;> rfl

/-! ### The blocks of a sum (R105 to R107) -/

/-- The exact sum of one component of sample `n`. -/
def exactSum (bs : List LaneBlock) (part : Sample → BitVec 16) (n : Fin 24) : Int := (bs.map fun b => (part (b.get n)).toInt).sum

/-- That sum scaled by the uplink gain. -/
def scaledSum (bs : List LaneBlock) (gain : Nat) (part : Sample → BitVec 16) (n : Fin 24) : Int :=
  nearest (exactSum bs part n * (gain : Int)) 4096

theorem combinedBlock_get (bs : List LaneBlock) (n : Fin 24) :
    ((combinedBlock bs).get n).i.toInt = saturate (exactSum bs (·.i) n) ∧
    ((combinedBlock bs).get n).q.toInt = saturate (exactSum bs (·.q) n) := saturateBlock_get (sumOf bs) n

theorem uplinkBlock_get (bs : List LaneBlock) (gain : Nat) (n : Fin 24) :
    ((uplinkBlock bs gain).1.get n).i.toInt = saturate (scaledSum bs gain (·.i) n) ∧
    ((uplinkBlock bs gain).1.get n).q.toInt = saturate (scaledSum bs gain (·.q) n) :=
  saturateBlock_get (fun n => (scaledSum bs gain (·.i) n, scaledSum bs gain (·.q) n)) n

theorem uplinkBlock_count (bs : List LaneBlock) (gain : Nat) :
    (uplinkBlock bs gain).2 = ((List.finRange 24).map fun n =>
      (if scaledSum bs gain (·.i) n < -32768 ∨ 32767 < scaledSum bs gain (·.i) n then 1 else 0) +
      (if scaledSum bs gain (·.q) n < -32768 ∨ 32767 < scaledSum bs gain (·.q) n then 1 else 0)).sum :=
  saturateBlock_count fun n => (scaledSum bs gain (·.i) n, scaledSum bs gain (·.q) n)

/-! ### What the close leaves in the combiner (R106 to R109) -/

section AfterClose
variable (u : Combiner) (i : CloseInput) {c : CarrierId}

theorem Combiner.afterClose_history (c : CarrierId) :
    (u.afterClose i).history.get c = closeHistory i.hfn (u.history.get c) ((i.sum (i.gates u.gates) c).map (·.combined)) := by
  rw [Combiner.afterClose, Table.get_make]

theorem Combiner.afterClose_lastClose (c : CarrierId) :
    (u.afterClose i).lastClose.get c =
      ((i.sum (i.gates u.gates) c).map fun x => (⟨i.hfn, x.contributions, x.saturated⟩ : LastClose)).or (u.lastClose.get c) := by
  rw [Combiner.afterClose, Table.get_make]
  cases i.sum (i.gates u.gates) c <;> rfl

variable {u i} {t : TrunkLane}

/-- A carrier that sums: its history and its last close. -/
theorem Combiner.afterClose_of_summing {bs : List LaneBlock} (active : (i.ctb.get c).state = .active)
    (dest : (i.ctb.get c).fields.ulDest = some t) (heard : i.contributions (i.gates u.gates) c = bs) :
    (u.afterClose i).history.get c = closeHistory i.hfn (u.history.get c) (some (combinedBlock bs)) ∧
    (u.afterClose i).lastClose.get c = some ⟨i.hfn, bs.length, (uplinkBlock bs (i.ctb.get c).fields.ulGain).2⟩ := by
  subst heard
  rw [u.afterClose_history i c, u.afterClose_lastClose i c, CloseInput.sum_of_active active dest]
  exact ⟨rfl, rfl⟩

/-- A carrier that forms no sum. -/
theorem Combiner.afterClose_of_unsummed (unsummed : ¬((i.ctb.get c).state = .active ∧ (i.ctb.get c).fields.ulDest.isSome)) :
    (u.afterClose i).history.get c = closeHistory i.hfn (u.history.get c) none ∧
    (u.afterClose i).lastClose.get c = u.lastClose.get c := by
  rw [u.afterClose_history i c, u.afterClose_lastClose i c, CloseInput.sum_of_unsummed unsummed]
  exact ⟨rfl, rfl⟩

/-- The trunk lane of a carrier that no other shares: its block and its CLIP. -/
theorem Combiner.afterClose_of_alone {bs : List LaneBlock} (active : (i.ctb.get c).state = .active)
    (dest : (i.ctb.get c).fields.ulDest = some t) (heard : i.contributions (i.gates u.gates) c = bs)
    (alone : ∀ d, d ≠ c → (i.ctb.get d).state = .active → (i.ctb.get d).fields.ulDest ≠ some t) :
    let x := uplinkBlock bs (i.ctb.get c).fields.ulGain
    (clipNotices (i.sums (i.gates u.gates))).filter (Notice.clipsTrunk t) = (if x.2 = 0 then [] else [.clipTrunk t c x.2]) ∧
    (u.afterClose i).uplink.get t = x.1 := by
  subst heard
  have only := CloseInput.sums_filter_dest active dest alone (i.gates u.gates)
  refine ⟨?_, (uplinkLanes_get _ t).trans ?_⟩
  · rw [clipNotices_filter, only]
    exact clipNotices_singleton _
  · rw [← List.head?_filter, only, List.head?_cons, Option.map_some, Option.getD_some]
    rfl

/-- A trunk lane that no sum goes to. -/
theorem Combiner.afterClose_of_free (free : ∀ c, (i.ctb.get c).state = .active → (i.ctb.get c).fields.ulDest ≠ some t) :
    (u.afterClose i).uplink.get t = zeroBlock := by
  refine (uplinkLanes_get _ t).trans ?_
  rw [CloseInput.sums_find?_dest_none free]
  rfl

end AfterClose

end Sys2Proof.Machine

namespace Sys2Proof.Proofs
open Sys2Proof Sys2Proof.Machine

/-- Settles O20: each row of Table 5-3 is a branch of the gate's move. At a close a lane is summed for the owner it is LIVE for; as a carrier owns
one lane of a group at most, its contributions are those of all its LIVE lanes; and of the sums formed one alone goes to a trunk lane that is not
shared. -/
theorem gateMovesByItsTable : Obligations.GateMovesByItsTable := by
  refine ⟨fun q p o k h ordered => ⟨Gate.update_of_loud h ordered, Gate.update_of_between h,
    fun quiet closed => Gate.update_closed_of_quiet h closed (quiet.trans_le ordered),
    fun quiet opened => Gate.update_opened_of_quiet h opened quiet, fun quiet hang => Gate.update_hang_of_quiet h hang quiet⟩,
    fun u i => ?_⟩
  intro v laneOf configured serves handed owns destOf gateOf terms total scaled changed clipped summing recent
  have gates : ∀ g l k, gateOf v g l k = i.gate u.gates g l k := i.gates_get u.gates
  have used : ∀ g k, (i.lanes.get g).config.configured k = configured g k := fun g k => GroupConfig.configured_eq _ k
  have summing_iff : ∀ c, summing c = true ↔ (i.ctb.get c).state = .active ∧ (i.ctb.get c).fields.ulDest.isSome := by
    intro c
    rw [Bool.and_eq_true, beq_iff_eq]
  have directed : ∀ {c t}, (i.ctb.get c).state = .active → (i.ctb.get c).fields.ulDest = some t → summing c = true :=
    fun active dest => (summing_iff _).2 ⟨active, dest ▸ rfl⟩
  refine ⟨fun g l k => ⟨fun c owned dest conf => ?_, fun untouched => ?_⟩, fun c one => ⟨fun sums => ?_, fun idle => ?_⟩,
    fun t free => Combiner.afterClose_of_free fun c active dest => free c (directed active dest) dest, rfl, rfl⟩
  · have gate := i.gate_of_summed (gates := u.gates) (CloseInput.summedOwner_of_owns owned dest) ((used g k).trans conf)
    rw [gates, gate]
    exact ⟨fun out => if_neg (Bool.eq_false_iff.1 out), fun serving => if_pos serving⟩
  · rw [gates]
    obtain spare | undirected := untouched
    · exact CloseInput.gate_of_spare ((used g k).trans spare)
    · exact CloseInput.gate_of_unsummed (CloseInput.summedOwner_of_undirected undirected)
  · obtain ⟨active, sent⟩ := (summing_iff c).1 sums
    obtain ⟨t, dest⟩ := Option.isSome_iff_exists.1 sent
    have heard : i.contributions (i.gates u.gates) c = terms c := by
      rw [CloseInput.contributions_eq one]
      simp only [CloseInput.contribution_eq]
      rfl
    have clips : (uplinkBlock (terms c) (i.ctb.get c).fields.ulGain).2 = clipped c := uplinkBlock_count _ _
    obtain ⟨history, last⟩ := Combiner.afterClose_of_summing active dest heard
    refine ⟨⟨_, history, combinedBlock_get _⟩, clips ▸ last, fun t' dest' shared => ?_⟩
    obtain ⟨notices, block⟩ := Combiner.afterClose_of_alone active dest' heard
      fun d other activeToo destToo => shared d other (directed activeToo destToo) destToo
    rw [clips] at notices
    refine ⟨notices, fun n => ?_⟩
    rw [block]
    exact uplinkBlock_get _ _ n
  · have unsummed := Combiner.afterClose_of_unsummed (u := u) fun both => Bool.eq_false_iff.1 idle ((summing_iff c).2 both)
    obtain ⟨history, last⟩ := unsummed
    exact ⟨history.trans (congrArg recent (List.append_nil _)), last⟩

end Sys2Proof.Proofs
end

section
/-! The consumption of a trunk port (R117 to R119) and the settlement of roles (R120): the entries of Table 6-1, what each verdict counts, and
which port is left ACTIVE. -/
namespace Sys2Proof.Machine

/-! ### The link transitions of Table 6-1 -/

namespace TrunkPort
variable (x : TrunkPort) {f : List Byte}

theorem move_down_good (link : x.link = .down) : x.move .good = { x with link := .acquiring, goodRun := 1 } := by
  simp only [move, link]

theorem move_down_bad (link : x.link = .down) : x.move .bad = x := by simp only [move, link]

theorem move_acquiring_good (link : x.link = .acquiring) : x.move .good =
    if 15 ≤ x.goodRun then { x with link := .up, goodRun := 16, badRun := 0 } else { x with goodRun := x.goodRun + 1 } := by
  have sixteen : (16 ≤ x.goodRun + 1) = (15 ≤ x.goodRun) := propext Nat.succ_le_succ_iff
  simp only [move, link, sixteen]

theorem move_acquiring_bad (link : x.link = .acquiring) : x.move .bad = x.goDown := by simp only [move, link]

theorem move_up_good (link : x.link = .up) : x.move .good = { x with badRun := 0 } := by simp only [move, link]

theorem move_up_bad (link : x.link = .up) : x.move .bad = if 7 ≤ x.badRun then x.goDown else { x with badRun := x.badRun + 1 } := by
  have eight : (8 ≤ x.badRun + 1) = (7 ≤ x.badRun) := propext Nat.succ_le_succ_iff
  simp only [move, link, eight]

/-- A move touches the link, the two runs and the last TFN alone. -/
theorem move_frame (v : TrunkVerdict) : ∃ link good bad tfn,
    x.move v = { x with link := link, goodRun := good, badRun := bad, lastTfn := tfn } := by
  unfold move
  split
  · exact ⟨_, _, _, _, rfl⟩
  · exact ⟨_, _, _, _, rfl⟩
  · split <;> exact ⟨_, _, _, _, rfl⟩
  · exact ⟨_, _, _, _, rfl⟩
  · exact ⟨_, _, _, _, rfl⟩
  · split <;> exact ⟨_, _, _, _, rfl⟩

section Frame
variable (v : TrunkVerdict)

@[simp] theorem move_fifo : (x.move v).fifo = x.fifo := by obtain ⟨_, _, _, _, moved⟩ := x.move_frame v; rw [moved]
@[simp] theorem move_role : (x.move v).role = x.role := by obtain ⟨_, _, _, _, moved⟩ := x.move_frame v; rw [moved]
@[simp] theorem move_goodFrames : (x.move v).goodFrames = x.goodFrames := by
  obtain ⟨_, _, _, _, moved⟩ := x.move_frame v; rw [moved]
@[simp] theorem move_checkFaults : (x.move v).checkFaults = x.checkFaults := by
  obtain ⟨_, _, _, _, moved⟩ := x.move_frame v; rw [moved]
@[simp] theorem move_misses : (x.move v).misses = x.misses := by obtain ⟨_, _, _, _, moved⟩ := x.move_frame v; rw [moved]
@[simp] theorem move_slips : (x.move v).slips = x.slips := by obtain ⟨_, _, _, _, moved⟩ := x.move_frame v; rw [moved]
@[simp] theorem move_tfnGaps : (x.move v).tfnGaps = x.tfnGaps := by obtain ⟨_, _, _, _, moved⟩ := x.move_frame v; rw [moved]

end Frame

/-- A good frame leaves the last TFN where it is: only a port that goes DOWN loses it. -/
theorem move_good_lastTfn : (x.move .good).lastTfn = x.lastTfn := by
  cases link : x.link with
  | down => rw [x.move_down_good link]
  | acquiring =>
    rw [x.move_acquiring_good link]
    split <;> rfl
  | up => rw [x.move_up_good link]

/-! ### The verdict and what it counts (R117, R118) -/

/-- A port that has found its FIFO empty, its link not yet moved. -/
def missed : TrunkPort := { x with misses := bump x.misses }

/-- A port that has taken a frame which fails its check, its link not yet moved. -/
def faulted : TrunkPort := { x with fifo := x.fifo.tail, checkFaults := bump x.checkFaults }

/-- A port that has taken a good frame and compared its TFN, its link not yet moved. -/
def heard (f : List Byte) : TrunkPort :=
  ({ x with fifo := x.fifo.tail, goodFrames := bump x.goodFrames } : TrunkPort).takeTfn (frameTfn f)

variable {x}

theorem consume_of_empty (empty : x.fifo = []) : x.consume = (x.missed.move .bad, none) := by
  simp only [consume, empty, missed]

theorem consume_of_bad (head : x.fifo.head? = some f) (bad : trunkFrameGood f = false) :
    x.consume = (x.faulted.move .bad, none) := by
  obtain ⟨rest, queue⟩ := List.head?_eq_some_iff.1 head
  simp only [consume, queue, bad, faulted, List.tail_cons]
  rfl

theorem consume_of_good (head : x.fifo.head? = some f) (good : trunkFrameGood f = true) :
    x.consume = ((x.heard f).move .good, some f) := by
  obtain ⟨rest, queue⟩ := List.head?_eq_some_iff.1 head
  simp only [consume, queue, good, heard, List.tail_cons, if_true]

/-- The three things a consumption can find. -/
theorem consume_cases (x : TrunkPort) : x.fifo = [] ∨ (∃ f, x.fifo.head? = some f ∧ trunkFrameGood f = false) ∨
    ∃ f, x.fifo.head? = some f ∧ trunkFrameGood f = true := by
  cases queue : x.fifo with
  | nil => exact .inl rfl
  | cons f rest =>
    cases verdict : trunkFrameGood f with
    | false => exact .inr (.inl ⟨f, rfl, verdict⟩)
    | true => exact .inr (.inr ⟨f, rfl, verdict⟩)

/-- A consumption that hands over no frame moves the link by the bad entry, with the port counted as missed or faulted. -/
theorem consume_of_none (none : x.consume.2 = none) : ∃ y : TrunkPort, x.consume.1 = y.move .bad ∧
    y.link = x.link ∧ y.goodRun = x.goodRun ∧ y.badRun = x.badRun ∧ y.lastTfn = x.lastTfn ∧ y.tfnGaps = x.tfnGaps := by
  obtain empty | ⟨f, head, bad⟩ | ⟨f, head, good⟩ := x.consume_cases
  · exact ⟨x.missed, by rw [consume_of_empty empty], rfl, rfl, rfl, rfl, rfl⟩
  · exact ⟨x.faulted, by rw [consume_of_bad head bad], rfl, rfl, rfl, rfl, rfl⟩
  · rw [consume_of_good head good] at none
    cases none

theorem consume_handed (f : List Byte) : x.consume.2 = some f ↔ x.fifo.head? = some f ∧ trunkFrameGood f = true := by
  refine ⟨fun handed => ?_, fun ⟨head, good⟩ => by rw [consume_of_good head good]⟩
  obtain empty | ⟨g, head, bad⟩ | ⟨g, head, good⟩ := x.consume_cases
  · rw [consume_of_empty empty] at handed; cases handed
  · rw [consume_of_bad head bad] at handed; cases handed
  · rw [consume_of_good head good] at handed
    cases handed
    exact ⟨head, good⟩

theorem consume_frame (x : TrunkPort) : x.consume.1.fifo = x.fifo.tail ∧ x.consume.1.role = x.role ∧ x.consume.1.slips = x.slips := by
  obtain empty | ⟨f, head, bad⟩ | ⟨f, head, good⟩ := x.consume_cases
  · simp [consume_of_empty empty, missed, empty]
  · simp [consume_of_bad head bad, faulted]
  · simp [consume_of_good head good, heard, takeTfn]

/-- A TFN gap is counted where a last TFN is kept and the frame's is not the next (R118). -/
theorem heard_tfnGaps (x : TrunkPort) (f : List Byte) :
    (∀ t, x.lastTfn = some t → frameTfn f ≠ t + 1 → (x.heard f).tfnGaps = bump x.tfnGaps) ∧
    (x.lastTfn = none ∨ x.lastTfn = some (frameTfn f - 1) → (x.heard f).tfnGaps = x.tfnGaps) := by
  refine ⟨fun t last gap => ?_, fun inStep => ?_⟩
  · have counted : (frameTfn f != t + 1) = true := bne_iff_ne.2 gap
    simp only [heard, takeTfn, last, counted, if_true]
  · obtain last | last := inStep
    · simp [heard, takeTfn, last]
    · simp [heard, takeTfn, last]

end TrunkPort

/-! ### Roles (R120) -/

/-- Whether a port is UP. -/
def TrunkSide.upAt (t : TrunkSide) (p : TrunkId) : Bool := (t.port p).link = .up

/-- The port that a settlement leaves ACTIVE. -/
def TrunkSide.chosen (t : TrunkSide) : Option TrunkId := settledActive t.active (t.upAt .a) (t.upAt .b)

theorem TrunkSide.active_eq_some {t : TrunkSide} (one : ¬(t.a.role = .active ∧ t.b.role = .active)) {p : TrunkId} :
    t.active = some p ↔ (t.port p).role = .active := by
  unfold TrunkSide.active
  cases p with
  | a =>
    by_cases active : t.a.role = .active
    · simp [active, TrunkSide.port]
    · simp [active, TrunkSide.port]
  | b =>
    by_cases active : t.a.role = .active
    · simpa [active, TrunkSide.port] using fun other => one ⟨active, other⟩
    · simp [active, TrunkSide.port]

theorem TrunkSide.active_eq_none {t : TrunkSide} : t.active = none ↔ t.a.role ≠ .active ∧ t.b.role ≠ .active := by
  unfold TrunkSide.active
  split
  · next active => simp [active]
  · next idle =>
    split
    · next active => simp [active]
    · next idle' => simp [idle, idle']

section Settle
variable {t : TrunkSide} {p : TrunkId}

/-- Only an UP port is chosen. -/
theorem TrunkSide.up_of_chosen (chosen : t.chosen = some p) : (t.port p).link = .up := by
  have up : t.upAt p = true := by
    unfold TrunkSide.chosen settledActive at chosen
    split at chosen
    all_goals cases chosen
    all_goals assumption
  exact of_decide_eq_true up

/-- The port that was ACTIVE stays so while it is UP: the settlement is non-revertive. -/
theorem TrunkSide.chosen_of_stays (was : t.active = some p) (up : (t.port p).link = .up) : t.chosen = some p := by
  have here : t.upAt p = true := decide_eq_true up
  cases p <;> simp [chosen, was, here, settledActive]

/-- Where the port that was ACTIVE is lost, the other takes over if it is UP. -/
theorem TrunkSide.chosen_of_lost (was : t.active = some p) (lost : (t.port p).link ≠ .up) (up : (t.port (otherTrunk p)).link = .up) :
    t.chosen = some (otherTrunk p) := by
  have here : t.upAt p = false := decide_eq_false lost
  have there : t.upAt (otherTrunk p) = true := decide_eq_true up
  cases p <;> simp_all [chosen, settledActive, otherTrunk]

/-- Where no port was ACTIVE, A comes before B. -/
theorem TrunkSide.chosen_of_none (was : t.active = none) :
    t.chosen = if t.a.link = .up then some .a else if t.b.link = .up then some .b else none := by
  by_cases upA : t.a.link = .up
  · simp [chosen, was, upAt, port, upA, settledActive]
  · by_cases upB : t.b.link = .up
    · simp [chosen, was, upAt, port, upA, upB, settledActive]
    · simp [chosen, was, upAt, port, upA, upB, settledActive]

theorem TrunkSide.settle_port (t : TrunkSide) (p : TrunkId) :
    t.settle.1.port p = { t.port p with role := roleFor t.chosen p (t.port p) } := by cases p <;> rfl

theorem TrunkSide.settle_role (t : TrunkSide) (p : TrunkId) : (t.settle.1.port p).role = roleFor t.chosen p (t.port p) := by
  rw [settle_port]

theorem TrunkSide.settle_link (t : TrunkSide) (p : TrunkId) : (t.settle.1.port p).link = (t.port p).link := by rw [settle_port]

theorem TrunkSide.settle_role_none : (t.settle.1.port p).role = .none ↔ (t.port p).link ≠ .up := by
  rw [settle_role, roleFor]
  split
  · next down => exact iff_of_true rfl down
  · next up => split <;> exact iff_of_false Role.noConfusion up

/-- The port chosen is ACTIVE after the settlement, and no other is. -/
theorem TrunkSide.settle_role_active : (t.settle.1.port p).role = .active ↔ t.chosen = some p := by
  rw [settle_role, roleFor]
  split
  · next down => exact iff_of_false Role.noConfusion fun chosen => down (up_of_chosen chosen)
  · next up =>
    split
    · next chosen => exact iff_of_true rfl chosen
    · next other => exact iff_of_false Role.noConfusion other

theorem TrunkSide.settle_one_active (t : TrunkSide) : ¬(t.settle.1.a.role = .active ∧ t.settle.1.b.role = .active) := by
  rintro ⟨a, b⟩
  have chosenA : t.chosen = some .a := settle_role_active.1 a
  have chosenB : t.chosen = some .b := settle_role_active.1 b
  cases chosenA.symm.trans chosenB

/-- TRUNK_SWITCH(LOSS) is raised where the ACTIVE role passes from one port to the other. -/
theorem TrunkSide.settle_notices (t : TrunkSide) : t.settle.2 = match t.active, t.chosen with
    | some p, some q => if p = q then [] else [.trunkSwitch q .loss]
    | _, _ => [] := rfl

end Settle

end Sys2Proof.Machine

namespace Sys2Proof.Proofs
open Sys2Proof Sys2Proof.Machine

/-- Settles O22: what the consumption finds decides what it counts, and the entry of Table 6-1 for its verdict moves the link. -/
theorem consumptionJudgesTheOldestFrame : Obligations.ConsumptionJudgesTheOldestFrame := by
  intro x y
  obtain ⟨fifo, role, slips⟩ := x.consume_frame
  refine ⟨fifo, role, slips, TrunkPort.consume_handed, fun empty => ?_, fun f head bad => ?_, fun f head good => ?_, fun unheard => ?_⟩
  · have consumed : y = x.missed.move .bad := congrArg Prod.fst (TrunkPort.consume_of_empty empty)
    simp [consumed, TrunkPort.missed, bump]
  · have consumed : y = x.faulted.move .bad := congrArg Prod.fst (TrunkPort.consume_of_bad head bad)
    simp [consumed, TrunkPort.faulted, bump]
  · have consumed : y = (x.heard f).move .good := congrArg Prod.fst (TrunkPort.consume_of_good head good)
    obtain ⟨gap, inStep⟩ := x.heard_tfnGaps f
    rw [consumed]
    refine ⟨TrunkPort.move_goodFrames _ _, TrunkPort.move_checkFaults _ _, TrunkPort.move_misses _ _, TrunkPort.move_good_lastTfn _,
      fun t last ne => (TrunkPort.move_tfnGaps _ _).trans (gap t last ne), fun ok => (TrunkPort.move_tfnGaps _ _).trans (inStep ok),
      fun down => ?_, fun acquiring low => ?_, fun acquiring high => ?_, fun up => ?_⟩
    · rw [(x.heard f).move_down_good down]
      exact ⟨rfl, rfl⟩
    · rw [(x.heard f).move_acquiring_good acquiring, if_neg (show ¬15 ≤ (x.heard f).goodRun from not_le.2 low)]
      exact ⟨acquiring, rfl⟩
    · rw [(x.heard f).move_acquiring_good acquiring, if_pos (show 15 ≤ (x.heard f).goodRun from high)]
      exact ⟨rfl, rfl⟩
    · rw [(x.heard f).move_up_good up]
      exact ⟨up, rfl⟩
  · obtain ⟨z, consumed, link, goodRun, badRun, lastTfn, tfnGaps⟩ := TrunkPort.consume_of_none unheard
    have moved : y = z.move .bad := consumed
    rw [moved, ← link, ← badRun, ← lastTfn, ← tfnGaps]
    refine ⟨TrunkPort.move_tfnGaps _ _, fun down => ?_, fun acquiring => ?_, fun up low => ?_, fun up high => ?_⟩
    · rw [z.move_down_bad down]
      exact down
    · rw [z.move_acquiring_bad acquiring]
      exact ⟨rfl, rfl, rfl⟩
    · rw [z.move_up_bad up, if_neg (not_le.2 low)]
      exact ⟨up, rfl, rfl⟩
    · rw [z.move_up_bad up, if_pos high]
      exact ⟨rfl, rfl, rfl, rfl⟩

/-- Settles O23: the role of each port follows from the port chosen, which is the one that was ACTIVE as long as it is UP. -/
theorem settlementIsNonRevertive : Obligations.SettlementIsNonRevertive := by
  intro t one u
  refine ⟨fun p => TrunkSide.settle_role_none.symm, t.settle_link, fun p was up => ?_, fun p was lost up => ?_, fun idleA idleB => ?_,
    t.settle_one_active⟩
  · have active := (TrunkSide.active_eq_some one).2 was
    have chosen := TrunkSide.chosen_of_stays active up
    refine ⟨TrunkSide.settle_role_active.2 chosen, ?_⟩
    simp only [TrunkSide.settle_notices, active, chosen, if_true]
  · have active := (TrunkSide.active_eq_some one).2 was
    have chosen := TrunkSide.chosen_of_lost active lost up
    have passes : p ≠ otherTrunk p := by cases p <;> decide
    refine ⟨TrunkSide.settle_role_active.2 chosen, ?_⟩
    simp only [TrunkSide.settle_notices, active, chosen, if_neg passes]
  · have active := TrunkSide.active_eq_none.2 ⟨idleA, idleB⟩
    have chosen := TrunkSide.chosen_of_none active
    refine ⟨by simp only [TrunkSide.settle_notices, active], fun upA => ?_, fun downA upB => ?_⟩
    · rw [if_pos upA] at chosen
      exact (TrunkSide.settle_role_active (p := .a)).2 chosen
    · rw [if_neg downA, if_pos upB] at chosen
      exact (TrunkSide.settle_role_active (p := .b)).2 chosen

end Sys2Proof.Proofs
end

section
/-! TRKSEL, TIMSET, VOXSET, the arrival of a trunk frame and HOLDOVER_EXPIRY: what each answers, case by case (R116, R123, R128, R130, R155). -/
namespace Sys2Proof.Machine

/-! ### TRKSEL (R123) -/

section Trksel
variable {s : State} {n : Nat} {q : TrunkId}

/-- The trunk interface with the ACTIVE role moved to a port by hand. -/
def TrunkSide.selected (t : TrunkSide) (q : TrunkId) : TrunkSide :=
  { t with
    a := { t.a with role := if q = .a then .active else .standby }
    b := { t.b with role := if q = .b then .active else .standby } }

theorem TrunkSide.setPort_selected (t : TrunkSide) (q : TrunkId) :
    (t.setPort q { t.port q with role := .active }).setPort (otherTrunk q) { t.port (otherTrunk q) with role := .standby } =
      t.selected q := by cases q <;> rfl

theorem codeTrunk_of_far (far : 2 ≤ n) : codeTrunk n = none := by
  unfold codeTrunk
  split
  · omega
  · omega
  · rfl

theorem trksel_of_unnamed (unnamed : codeTrunk n = none) : trksel n s = refuse .range s := by rw [trksel, unnamed]

theorem trksel_of_down (named : codeTrunk n = some q) (down : (s.tif.port q).link ≠ .up) : trksel n s = refuse .state s := by
  simp only [trksel, named, if_pos down]

theorem trksel_of_active (named : codeTrunk n = some q) (up : (s.tif.port q).link = .up) (active : (s.tif.port q).role = .active) :
    trksel n s = okWith s [] := by
  simp only [trksel, named, if_neg (not_not.2 up), if_pos active]

theorem trksel_of_standby (named : codeTrunk n = some q) (up : (s.tif.port q).link = .up) (standby : (s.tif.port q).role ≠ .active) :
    trksel n s = okWith { s with tif := s.tif.selected q, mga := s.mga.raise (.trunkSwitch q .select) } [] := by
  simp only [trksel, named, if_neg (not_not.2 up), if_neg standby, TrunkSide.setPort_selected]
  rfl

end Trksel

/-! ### TIMSET and VOXSET (R130, R155) -/

theorem clampTrim_eq (v : Int) : clampTrim v = if v < -127 then -127 else if 127 < v then 127 else v := by
  unfold clampTrim
  split_ifs <;> omega

theorem clampTrim_changed (v : Int) : (clampTrim v != v) = decide (v < -127 ∨ 127 < v) := by
  rw [Bool.eq_iff_iff, bne_iff_ne, decide_eq_true_eq, clampTrim]
  omega

/-- The player parameters as VOXSET stores them. -/
def voxsetStored (a : VoxsetArgs) : VoxParams where
  deviation := if 31 < a.deviation then 31 else a.deviation
  amplitude := if 4096 < a.amplitude then 4096 else a.amplitude
  fadeStep := if a.fadeStep = 0 then 1 else if 4096 < a.fadeStep then 4096 else a.fadeStep
  liveGain := a.liveGain

theorem min_eq_ite (n m : Nat) : min n m = if m < n then m else n := by
  split_ifs <;> omega

theorem min_changed (n m : Nat) : (min n m != n) = decide (m < n) := by
  rw [Bool.eq_iff_iff, bne_iff_ne, decide_eq_true_eq]
  omega

theorem voxset_eq (a : VoxsetArgs) (s : State) : voxset a s = okWith { s with bku := { s.bku with params := voxsetStored a } }
    (changedFields [(0, decide (31 < a.deviation)), (1, decide (4096 < a.amplitude)),
      (2, decide (a.fadeStep = 0 ∨ 4096 < a.fadeStep))]) := by
  have step : max 1 (min a.fadeStep 4096) = if a.fadeStep = 0 then 1 else if 4096 < a.fadeStep then 4096 else a.fadeStep := by
    split_ifs <;> omega
  have changed : (max 1 (min a.fadeStep 4096) != a.fadeStep) = decide (a.fadeStep = 0 ∨ 4096 < a.fadeStep) := by
    rw [Bool.eq_iff_iff, bne_iff_ne, decide_eq_true_eq]
    omega
  simp only [voxset, min_changed, changed]
  rw [step, min_eq_ite, min_eq_ite]
  rfl

/-! ### HOLDOVER_EXPIRY (R128) -/

theorem Pacer.countHold_of_due {p : Pacer} (due : p.ref = .holdover ∧ p.holdLimit ≤ p.holdCount + 1) :
    p.countHold = ({ p with ref := .freeRun, holdCount := p.holdCount + 1 }, [.referenceState .freeRun]) := by
  rw [countHold, if_pos due.1, if_pos due.2]

theorem holdoverExpiry_eq (s : State) : holdoverExpiry s = if s.fps.ref = .holdover ∧ s.fps.holdLimit ≤ s.fps.holdCount + 1 then
    { s with
      fps := { s.fps with ref := .freeRun, holdCount := s.fps.holdCount + 1 }
      mga := s.mga.raise (.referenceState .freeRun) } else s := by
  unfold holdoverExpiry
  split
  · next due => rw [Pacer.countHold_of_due due]; rfl
  · rfl

end Sys2Proof.Machine

namespace Sys2Proof.Proofs
open Sys2Proof Sys2Proof.Machine

/-- Settles O25: one case per check of TRKSEL, in the order in which they are made. -/
theorem trkselMovesTheActiveRole : Obligations.TrkselMovesTheActiveRole := fun _ _ _ _ n h =>
  ⟨fun far => exec_heard h (.trksel n) (trksel_of_unnamed (codeTrunk_of_far far)),
    fun named down => exec_heard h (.trksel n) (trksel_of_down named down),
    fun named up active => exec_heard h (.trksel n) (trksel_of_active named up active),
    fun named up standby => exec_heard h (.trksel n) (trksel_of_standby named up standby)⟩

/-- Settles O21: the arrival is an event, and the FIFO decides alone. -/
theorem trunkFrameJoinsTheFifoOrSlips : Obligations.TrunkFrameJoinsTheFifoOrSlips :=
  fun _ p f awake => eventCommand_awake awake (trunkFrameArrival p f)

/-- Settles O24: the expiry is the last step of the count, and nothing before it is due. -/
theorem holdoverExpiresToFreeRun : Obligations.HoldoverExpiresToFreeRun :=
  fun s awake => (eventCommand_awake awake holdoverExpiry).trans (congrArg _ (holdoverExpiry_eq s))

/-- Settles O28: the values are stored clamped, and a field is listed exactly where clamping changes it. -/
theorem timsetAndVoxsetStoreTheirValues : Obligations.TimsetAndVoxsetStoreTheirValues := by
  intro s p tag h
  refine ⟨fun limit v => ?_, fun a => exec_heard h (.voxset a) (voxset_eq a s)⟩
  have done : requestAct id (.timset limit v) s = okWith { s with fps := { s.fps with holdLimit := limit, trim := clampTrim v } }
      (changedFields [(1, clampTrim v != v)]) := rfl
  rw [clampTrim_changed, clampTrim_eq, changedFields_one] at done
  simp only [decide_eq_true_eq] at done
  exact exec_heard h (.timset limit v) done

end Sys2Proof.Proofs
end

section
/-! What a slot event marks in the hub and settles of the trunk side, and that no request moves it but TRKSEL, which moves roles alone. -/
namespace Sys2Proof.Machine

/-- What a slot event leaves in the hub for its requests, which leave it as it is. -/
structure SlotMarks where
  settled : Option TrunkId
  ref : RefState
  hfn : Option FrameNo
  slots : List FrameNo
  sampled : Option FrameNo
  worked : Option FrameNo
  pins : Pins
  pending : List Instr

/-- The marks in the hub. -/
def State.slotMarks (s : State) : SlotMarks :=
  ⟨s.tif.settled, s.fps.ref, s.fps.hfn, openSlots s.ucb.window, s.ict.sampleHfn, s.bku.lastWork, s.pins, s.pending⟩

/-- The marks with both trunk ports. -/
def State.standing (s : State) : TrunkPort × TrunkPort × SlotMarks := (s.tif.a, s.tif.b, s.slotMarks)

theorem slotMarks_of_standing {s t : State} (same : t.standing = s.standing) : t.slotMarks = s.slotMarks :=
  congrArg (fun x => x.2.2) same

theorem State.withSpans_standing {s : State} {v : Spans} (kept : WindowKept s.ucb.window v.window) :
    (s.withSpans v).standing = s.standing := by
  simp only [standing, slotMarks, withSpans_tif, withSpans_fps, withSpans_ucb, withSpans_ict, withSpans_bku, withSpans_pins,
    withSpans_pending, kept.slots]

theorem State.withBku_standing {s : State} {b : Bku} (worked : b.unit.lastWork = s.bku.lastWork) :
    (s.withBku b).standing = s.standing := by
  simp only [standing, slotMarks, withBku_tif, withBku_fps, withBku_ucb, withBku_ict, withBku_bku, withBku_pins, withBku_pending, worked]

theorem State.withAlloc_standing (s : State) (a : Alloc) : (s.withAlloc a).standing = s.standing := rfl

theorem State.raise_standing (s : State) (n : Notice) : (s.raise n).standing = s.standing := rfl

/-! ### The player arbiter leaves the mark of the last work -/

theorem Bku.walk_lastWork (mask : Nat) (rs : List AnnRequest) : ∀ (blocked : GroupSet) (b : Bku),
    (Bku.walk mask rs blocked b).2.unit.lastWork = b.unit.lastWork := by
  induction rs with
  | nil => exact fun _ _ => rfl
  | cons r rs ih =>
    intro blocked b
    unfold Bku.walk
    split
    · exact ih blocked b
    · split
      · next p _ => exact (ih _ (b.start p r)).trans (by cases p <;> rfl)
      · exact ih _ _

theorem Bku.arbiter_lastWork (mask : Nat) (b : Bku) : (Bku.arbiter mask b).unit.lastWork = b.unit.lastWork :=
  Bku.walk_lastWork mask _ _ b

theorem Bku.maskChange_lastWork (old new : Nat) (b : Bku) : (b.maskChange old new).unit.lastWork = b.unit.lastWork := by
  unfold Bku.maskChange
  split
  · rfl
  · exact Bku.arbiter_lastWork _ _

theorem Bku.cancel_lastWork (b : Bku) (tag : Nat) : (b.cancel tag).unit.lastWork = b.unit.lastWork := by
  unfold Bku.cancel
  split <;> rfl

theorem Bku.finish_lastWork (b : Bku) (id : PlayerId) : (b.finish id).unit.lastWork = b.unit.lastWork := by
  have idled : ∀ x, (b.unit.setPlayer id x).lastWork = b.unit.lastWork := fun x => by cases id <;> rfl
  unfold Bku.finish
  dsimp only
  split
  · exact idled _
  · exact idled _
  · exact idled _

/-! ### Requests -/

section Requests
variable (n : Nat) (s : State)

theorem carset_standing (a : CarsetArgs) : (carset a s).state.standing = s.standing := by
  unfold carset
  split
  · dsimp only
    split
    · split <;> rfl
    · rfl
  · rfl

theorem caron_standing : (caron n s).state.standing = s.standing := by
  unfold caron
  split
  · rfl
  · split <;> rfl

theorem caroff_standing : (caroff n s).state.standing = s.standing := by
  unfold caroff
  split
  · rfl
  · split <;> rfl

theorem carclr_standing : (carclr n s).state.standing = s.standing := by
  unfold carclr
  split
  · rfl
  · split <;> rfl

theorem trim_standing (g v : Nat) : (trim n g v s).state.standing = s.standing := by
  unfold trim
  split
  · dsimp only
    split
    · rfl
    · split <;> rfl
  · rfl

theorem grpset_standing (a : GrpsetArgs) : (grpset a s).state.standing = s.standing := by
  by_cases unnamed : 8 ≤ a.group ∨ codeForm a.form = none
  · rw [grpset_of_unnamed unnamed]; rfl
  · obtain ⟨near, form⟩ := not_or.1 unnamed
    obtain ⟨form, named⟩ := Option.ne_none_iff_exists'.1 form
    let g : GroupId := ⟨a.group, not_le.1 near⟩
    cases checks : grpsetRefusal s g a form with
    | some st => rw [grpset_of_refusal (g := g) rfl named checks]; rfl
    | none =>
      have discarded : ∀ cfg, (s.setUpAnew g cfg).standing = s.standing := by
        intro cfg
        rw [setUpAnew_eq]
        simp only [State.standing, State.slotMarks, (WindowKept.filter s.ucb.window _).slots]
        rfl
      rw [grpset_of_pass (g := g) rfl named checks, okWith]
      dsimp only
      split
      · exact discarded _
      · rfl

theorem sprst_standing : (sprst n s).state.standing = s.standing := by
  unfold sprst
  split
  · rfl
  · next p _ =>
    split
    · rfl
    · next g sd _ => exact State.withSpans_standing (s.spans.resetPort_kept g sd p)

theorem incidentEvent_standing (cause : IncidentCause) (mask : Nat) : (incidentEvent cause mask s).standing = s.standing := by
  have worked : (s.bkuView.maskChange mask s.ict.row.announceMask).unit.lastWork = s.bku.lastWork :=
    Bku.maskChange_lastWork mask s.ict.row.announceMask s.bkuView
  rw [incidentEvent_eq, State.withBku_standing (by rw [worked, State.withAlloc_bku, State.raise_bku]), State.withAlloc_standing,
    State.raise_standing]

theorem changeLevels_standing (cause : IncidentCause) {i : Incident} (sampled : i.sampleHfn = s.ict.sampleHfn) :
    (changeLevels cause i s).standing = s.standing := by
  have levelled : ({ s with ict := i } : State).standing = s.standing := by simp only [State.standing, State.slotMarks, sampled]
  unfold changeLevels
  dsimp only
  split
  · exact levelled
  · exact (incidentEvent_standing _ _ _).trans levelled

theorem incclr_standing : (incclr s).state.standing = s.standing := by
  unfold incclr
  split
  · rfl
  · exact changeLevels_standing s _ rfl

theorem profset_standing (a : ProfsetArgs) : (profset a s).state.standing = s.standing := by
  unfold profset
  split
  · dsimp only
    split
    · exact incidentEvent_standing _ _ _
    · rfl
  · rfl

theorem annc_standing (a : AnncArgs) : (annc a s).state.standing = s.standing := by
  unfold annc
  split
  · rfl
  · split
    · rfl
    · split
      · rfl
      · split
        · rfl
        · exact State.withBku_standing (Bku.arbiter_lastWork _ _)

theorem ancan_standing : (ancan n s).state.standing = s.standing := by
  unfold ancan
  split
  · rfl
  · split
    · rfl
    · exact State.withBku_standing ((Bku.arbiter_lastWork _ _).trans (s.bkuView.cancel_lastWork n))

theorem pgopen_standing : (pgopen n s).state.standing = s.standing := by
  unfold pgopen
  split <;> rfl

theorem pgdata_standing (bs : List Byte) : (pgdata n bs s).state.standing = s.standing := by
  unfold pgdata
  split
  · rfl
  · split
    · rfl
    · split <;> rfl

theorem pgcommit_standing : (pgcommit s).state.standing = s.standing := by
  unfold pgcommit
  split
  · rfl
  · split <;> rfl

theorem blkerase_standing : (blkerase n s).state.standing = s.standing := by
  unfold blkerase
  split
  · rfl
  · split <;> rfl

theorem blkguard_standing (bar : Nat) : (blkguard n bar s).state.standing = s.standing := by
  unfold blkguard
  split
  · rfl
  · split
    · rfl
    · split <;> rfl
  · rfl

theorem msgdef_standing (a : MsgdefArgs) : (msgdef a s).state.standing = s.standing := by
  unfold msgdef
  split <;> rfl

theorem msgclr_standing : (msgclr n s).state.standing = s.standing := by
  unfold msgclr
  split
  · rfl
  · split <;> rfl

theorem save_standing : (save s).state.standing = s.standing := by
  unfold save
  split <;> rfl

theorem restart_standing : (restart n s).state.standing = s.standing := by
  unfold restart
  split
  · rfl
  · split <;> rfl

/-- TRKSEL refuses, or finds its port ACTIVE already, and leaves the hub; or it moves the ACTIVE role to an UP port (R123). -/
theorem trksel_cases : (trksel n s).state = s ∨
    ∃ q, (s.tif.port q).link = .up ∧
      (trksel n s).state = { s with tif := s.tif.selected q, mga := s.mga.raise (.trunkSwitch q .select) } := by
  cases named : codeTrunk n with
  | none => rw [trksel_of_unnamed named]; exact .inl rfl
  | some q =>
    by_cases up : (s.tif.port q).link = .up
    · by_cases active : (s.tif.port q).role = .active
      · rw [trksel_of_active named up active]; exact .inl rfl
      · rw [trksel_of_standby named up active]; exact .inr ⟨q, up, rfl⟩
    · rw [trksel_of_down named up]; exact .inl rfl

theorem trksel_slotMarks : (trksel n s).state.slotMarks = s.slotMarks := by
  obtain kept | ⟨q, -, moved⟩ := trksel_cases n s
  · rw [kept]
  · rw [moved]; rfl

end Requests

/-- No request but TRKSEL touches the trunk ports or the marks of the slot. -/
theorem requestAct_standing (v : State → State) {r : Request} (s : State) (other : ∀ n, r ≠ .trksel n) :
    (requestAct v r s).state.standing = s.standing := by
  cases r with
  | rdrec sel part => exact congrArg State.standing (rdrecOf_state (v s) sel part s)
  | carset a => exact carset_standing s a
  | caron n => exact caron_standing n s
  | caroff n => exact caroff_standing n s
  | carclr n => exact carclr_standing n s
  | trim n g x => exact trim_standing n s g x
  | grpset a => exact grpset_standing s a
  | sprst n => exact sprst_standing n s
  | incset n => exact changeLevels_standing s _ rfl
  | incclr => exact incclr_standing s
  | profset a => exact profset_standing s a
  | annc a => exact annc_standing s a
  | ancan n => exact ancan_standing n s
  | voxset a => rfl
  | pgopen n => exact pgopen_standing n s
  | pgdata off bs => exact pgdata_standing off s bs
  | pgcommit => exact pgcommit_standing s
  | blkerase n => exact blkerase_standing n s
  | blkguard n bar => exact blkguard_standing n s bar
  | msgdef a => exact msgdef_standing s a
  | msgclr n => exact msgclr_standing n s
  | trksel n => exact absurd rfl (other n)
  | timset limit x => rfl
  | save => exact save_standing s
  | restart n => exact restart_standing n s
  | causeclr => rfl

theorem requestAct_slotMarks (v : State → State) (r : Request) (s : State) : (requestAct v r s).state.slotMarks = s.slotMarks := by
  by_cases select : ∃ n, r = .trksel n
  · obtain ⟨n, rfl⟩ := select
    exact trksel_slotMarks n s
  · exact slotMarks_of_standing (requestAct_standing v s fun n named => select ⟨n, named⟩)

end Sys2Proof.Machine
end

section
/-! The law of trunk roles and reference state (R120, R121, R123, R127): what the consumption of a slot settles, what TRKSEL moves, and that
nothing else touches either. -/
namespace Sys2Proof.Machine

/-- What the law reads of the hub. -/
structure RoleView where
  roleA : Role
  linkA : TrunkLink
  roleB : Role
  linkB : TrunkLink
  ref : RefState
  settled : Option TrunkId

/-- Roles, links, reference state and settled port in the hub. -/
def State.roleView (s : State) : RoleView :=
  ⟨s.tif.a.role, s.tif.a.link, s.tif.b.role, s.tif.b.link, s.fps.ref, s.tif.settled⟩

/-- The law of trunk roles. -/
structure RoleView.Ok (x : RoleView) : Prop where
  one : ¬(x.roleA = .active ∧ x.roleB = .active)
  upA : x.roleA = .active → x.linkA = .up
  upB : x.roleB = .active → x.linkB = .up
  locked : x.ref = .locked ↔ x.roleA = .active ∨ x.roleB = .active
  settled : x.settled ≠ none → x.roleA = .active ∨ x.roleB = .active

theorem rolesOk_iff (s : State) : s.rolesOk ↔ s.roleView.Ok :=
  ⟨fun ⟨one, upA, upB, locked, settled⟩ => ⟨one, upA, upB, locked, settled⟩,
    fun ⟨one, upA, upB, locked, settled⟩ => ⟨one, upA, upB, locked, settled⟩⟩

theorem RoleView.Ok.of_eq {x y : RoleView} (ok : x.Ok) (same : y = x) : y.Ok := same ▸ ok

theorem roleView_of_standing {s t : State} (same : t.standing = s.standing) : t.roleView = s.roleView :=
  congrArg (fun x : TrunkPort × TrunkPort × SlotMarks =>
    (⟨x.1.role, x.1.link, x.2.1.role, x.2.1.link, x.2.2.ref, x.2.2.settled⟩ : RoleView)) same

/-! ### The reference state (R127, R128) -/

theorem Pacer.countHold_locked (p : Pacer) : p.countHold.1.ref = .locked ↔ p.ref = .locked := by
  unfold countHold
  split
  · next hold =>
    split
    · exact iff_of_false RefState.noConfusion (by rw [hold]; decide)
    · exact Iff.rfl
  · exact Iff.rfl

/-- After a settlement the reference state is LOCKED exactly where a port is ACTIVE (Table 6-2). -/
theorem Pacer.settle_locked (p : Pacer) (active : Bool) : (p.settle active).1.ref = .locked ↔ active = true := by
  unfold settle
  split
  · next locked => exact iff_of_true locked rfl
  · exact iff_of_true rfl rfl
  · refine iff_of_false ?_ Bool.noConfusion
    dsimp only
    split <;> exact RefState.noConfusion
  · next unlocked => exact iff_of_false unlocked Bool.noConfusion

theorem Pacer.steer_ref (p : Pacer) (was : Bool) : (p.steer was).ref = p.ref := by
  unfold steer
  split <;> rfl

/-! ### The consumption of a slot (R117 to R121) -/

/-- The trunk interface once both ports have consumed, before its roles are settled. -/
def TrunkSide.consumed (t : TrunkSide) : TrunkSide := { t with a := t.a.consume.1, b := t.b.consume.1 }

theorem consumption_tif (first : Bool) (s : State) :
    (consumption first s).1.tif = { s.tif.consumed.settle.1 with settled := s.tif.consumed.settle.1.active } := rfl

theorem consumption_locked (first : Bool) (s : State) :
    (consumption first s).1.fps.ref = .locked ↔ s.tif.consumed.settle.1.active.isSome = true := by
  unfold consumption
  dsimp only
  rw [Pacer.steer_ref]
  split
  · rw [Pacer.countHold_locked, Pacer.settle_locked]; rfl
  · rw [Pacer.settle_locked]; rfl

/-- Whatever stood before it, the consumption of a slot settles the law. -/
theorem consumption_ok (first : Bool) (s : State) : (consumption first s).1.roleView.Ok := by
  let t := s.tif.consumed
  have active : (t.settle.1.active = none → False) ↔ t.settle.1.a.role = .active ∨ t.settle.1.b.role = .active := by
    rw [TrunkSide.active_eq_none, ← not_or]
    exact not_not
  have up : ∀ p, (t.settle.1.port p).role = .active → (t.settle.1.port p).link = .up := fun p role =>
    (t.settle_link p).trans (TrunkSide.up_of_chosen (TrunkSide.settle_role_active.1 role))
  exact
    { one := t.settle_one_active
      upA := up .a
      upB := up .b
      locked := (consumption_locked first s).trans (Option.isSome_iff_ne_none.trans active)
      settled := active.1 }

theorem openSlot_ok (n : FrameNo) (ord : SlotOrder) (s : State) : (openSlot n ord s).1.roleView.Ok :=
  consumption_ok ord.expiryFirst { s with mga := { s.mga with respA := none, respB := none } }

/-! ### TRKSEL (R123) -/

/-- The ACTIVE role moved by hand to an UP port, where one was ACTIVE already. -/
theorem RoleView.Ok.select {s : State} (ok : s.roleView.Ok) {q : TrunkId} (up : (s.tif.port q).link = .up) (settled : s.tif.settled ≠ none)
    (m : Agent) : ({ s with tif := s.tif.selected q, mga := m } : State).roleView.Ok := by
  have locked : s.fps.ref = .locked := ok.locked.2 (ok.settled settled)
  cases q with
  | a => exact ⟨by simp [State.roleView, TrunkSide.selected], fun _ => up, by simp [State.roleView, TrunkSide.selected],
      iff_of_true locked (.inl rfl), fun _ => .inl rfl⟩
  | b => exact ⟨by simp [State.roleView, TrunkSide.selected], by simp [State.roleView, TrunkSide.selected], fun _ => up,
      iff_of_true locked (.inr rfl), fun _ => .inr rfl⟩

theorem trksel_ok (n : Nat) {s : State} (ok : s.roleView.Ok) (settled : s.tif.settled ≠ none) : (trksel n s).state.roleView.Ok := by
  obtain kept | ⟨q, up, moved⟩ := trksel_cases n s
  · rw [kept]; exact ok
  · rw [moved]; exact ok.select up settled _

/-- A request taken whole: TRKSEL is carried out only where a port is settled ACTIVE (R191, R192). -/
theorem serve_ok (v : State → State) (p : TrunkId) (tag : Nat) (r : Request) {s : State} (ok : s.roleView.Ok) :
    (serve p tag (requestCode r) (requestAct v r) s).roleView.Ok := by
  unfold serve
  obtain ⟨-, refused⟩ | ⟨-, -, -, refused⟩ | ⟨-, allowed, heard⟩ := check_cases p tag (requestCode r) (requestAct v r) s
  · rw [refused]; exact ok
  · rw [refused]; exact ok
  · rw [heard]
    by_cases select : ∃ n, r = .trksel n
    · obtain ⟨n, rfl⟩ := select
      have settled : s.tif.settled = some p := allowed.resolve_left (show (22 : Nat) ≠ 1 by decide)
      exact trksel_ok n ok (by rw [settled]; exact Option.some_ne_none p)
    · exact ok.of_eq (roleView_of_standing (requestAct_standing v s fun n named => select ⟨n, named⟩))

/-! ### The slot event -/

theorem closeSlot_roleView (n : FrameNo) (ctb : Table Carrier 64) (lanes : Table Group 8) (s : State) :
    (closeSlot n ctb lanes s).roleView = s.roleView := by
  unfold closeSlot
  dsimp only
  split <;> rfl

theorem works_roleView (o : WorkOrder) (i : MixInput) (s : State) : (works o i s).roleView = s.roleView := by
  have mixer : ∀ t, (mixerWork i t).roleView = t.roleView := fun _ => rfl
  have players : ∀ t, (playerWork i t).roleView = t.roleView := fun _ => rfl
  have spans : ∀ t, (spanWork i t).roleView = t.roleView := fun _ => closeSlot_roleView _ _ _ _
  cases o <;> simp only [works, mixer, players, spans]

theorem slotWorked_ok (n : FrameNo) (ord : SlotOrder) (s : State) : (slotWorked n ord s).roleView.Ok :=
  (openSlot_ok n ord s).of_eq (works_roleView ord.works _ _)

theorem takeFrameCell_ok (v : State → State) (p : TrunkId) (f : Option (List Byte)) {s : State} (ok : s.roleView.Ok) :
    (takeFrameCell v p f s).roleView.Ok := by
  unfold takeFrameCell
  split
  · unfold takeCell
    split
    · exact ok
    · exact ok
    · exact ok
    · exact serve_ok v p _ _ ok
  · exact ok

theorem changeLevels_roleView (cause : IncidentCause) (i : Incident) (s : State) : (changeLevels cause i s).roleView = s.roleView := by
  simp only [State.roleView, changeLevels_tif, changeLevels_fps]

theorem slotEvent_ok (n : FrameNo) (line : Bool) (ord : SlotOrder) (s : State) : (slotEvent n line ord s).roleView.Ok :=
  tail_keeps (law := fun t => t.roleView.Ok) ord.tail (fun ok => ok.of_eq (changeLevels_roleView _ _ _))
    (takeFrameCell_ok (earlyView ord s) .a _) (takeFrameCell_ok (earlyView ord s) .b _) (slotWorked_ok n ord s)

/-! ### Resets and start-up (R133, R134) -/

theorem resetBlocks_roleOk (keep : Bool) (causes : CauseRecord) (s : State) : (resetBlocks keep causes s).roleView.Ok where
  one := by simp [resetBlocks, State.roleView, TrunkSide.default, TrunkPort.default]
  upA := Role.noConfusion
  upB := Role.noConfusion
  locked := iff_of_false RefState.noConfusion (by simp [resetBlocks, State.roleView, TrunkSide.default, TrunkPort.default])
  settled := fun settled => absurd rfl settled

theorem startUp_roleView (outcome : SettingsOutcome) (ids : List CarrierId) (s : State) : (startUp outcome ids s).roleView = s.roleView := rfl

theorem startUpLoading_roleView (s : State) : (startUpLoading s).roleView = s.roleView := by
  unfold startUpLoading
  split <;> rfl

theorem restartNow_roleOk (f : RestartForm) (s : State) : (restartNow f s).roleView.Ok := by
  cases f with
  | keep => exact (resetBlocks_roleOk true _ s).of_eq (startUp_roleView _ _ _)
  | reload => exact (resetBlocks_roleOk false _ s).of_eq (startUpLoading_roleView _)

theorem restartTakesEffect_roleOk {s : State} (ok : s.roleView.Ok) : (restartTakesEffect s).roleView.Ok := by
  unfold restartTakesEffect
  split
  · exact restartNow_roleOk _ s
  · exact ok

theorem lineReset_roleOk {s : State} (ok : s.roleView.Ok) : (lineReset s).roleView.Ok := by
  unfold lineReset
  split
  · exact ok
  · exact resetBlocks_roleOk false s.mga.causes.lineReset s

theorem leaveReset_roleView (s : State) : (leaveReset s).roleView = s.roleView := by
  unfold leaveReset
  split
  · rfl
  · exact startUpLoading_roleView s

theorem resetInputRelease_roleView (s : State) : (resetInputRelease s).roleView = s.roleView := by
  unfold resetInputRelease
  split
  · exact leaveReset_roleView _
  · rfl

theorem suppliesSteady_roleView (s : State) : (suppliesSteady s).roleView = s.roleView := by
  unfold suppliesSteady
  split
  · exact leaveReset_roleView _
  · rfl

/-! ### Events -/

section Events
variable (s : State)

/-- HOLDOVER_EXPIRY leads from HOLDOVER to FREE_RUN, neither of them LOCKED. -/
theorem holdoverExpiry_roleOk {s : State} (ok : s.roleView.Ok) : (holdoverExpiry s).roleView.Ok := by
  rw [holdoverExpiry_eq]
  split
  · next due =>
    have unlocked : s.fps.ref ≠ .locked := by rw [due.1]; decide
    exact { ok with locked := iff_of_false RefState.noConfusion (mt ok.locked.2 unlocked) }
  · exact ok

theorem laneGuardExpiry_roleView (g : GroupId) (l : LaneId) : (laneGuardExpiry g l s).roleView = s.roleView := by
  unfold laneGuardExpiry
  split <;> rfl

theorem overBudget_roleView (g : GroupId) : (overBudget g s).roleView = s.roleView := by
  unfold overBudget
  dsimp only
  split <;> rfl

theorem missLimitReached_roleView (g : GroupId) (k : Pos) (sd : Side) : (missLimitReached g k sd s).roleView = s.roleView := by
  unfold missLimitReached
  dsimp only
  split <;> rfl

theorem hangExpiry_roleView (g : GroupId) (l : LaneId) (k : Pos) : (hangExpiry g l k s).roleView = s.roleView := by
  unfold hangExpiry
  dsimp only
  split <;> rfl

theorem fadeEnd_roleView (id : PlayerId) : (fadeEnd id s).roleView = s.roleView := by
  unfold fadeEnd
  dsimp only
  split
  · split <;> rfl
  · split <;> rfl
  · rfl

theorem gapEnd_roleView (id : PlayerId) : (gapEnd id s).roleView = s.roleView := by
  unfold gapEnd
  dsimp only
  split <;> rfl

theorem liveSpeechLoss_roleView (id : PlayerId) : (liveSpeechLoss id s).roleView = s.roleView := by
  unfold liveSpeechLoss
  dsimp only
  split <;> rfl

/-- An arrival moves neither link nor role (R116). -/
theorem trunkFrameArrival_roleView (p : TrunkId) (bs : List Byte) : (trunkFrameArrival p bs s).roleView = s.roleView := by
  have kept : ∀ x : TrunkPort, (x.arrive bs).role = x.role ∧ (x.arrive bs).link = x.link := by
    intro x
    unfold TrunkPort.arrive
    split <;> exact ⟨rfl, rfl⟩
  cases p with
  | a => simp only [State.roleView, trunkFrameArrival, TrunkSide.setPort, TrunkSide.port, kept]
  | b => simp only [State.roleView, trunkFrameArrival, TrunkSide.setPort, TrunkSide.port, kept]

theorem spanUplinkFrameArrival_roleView (p : SpanId) (bs : List Byte) : (spanUplinkFrameArrival p bs s).roleView = s.roleView := by
  unfold spanUplinkFrameArrival
  split <;> rfl

theorem storeProgramCompletion_roleView (r : StoreResult) : (storeProgramCompletion r s).roleView = s.roleView := by
  unfold storeProgramCompletion
  split <;> rfl

theorem storeEraseCompletion_roleView (r : StoreResult) : (storeEraseCompletion r s).roleView = s.roleView := by
  unfold storeEraseCompletion
  split <;> rfl

theorem settingsSaveCompletion_roleView (r : StoreResult) : (settingsSaveCompletion r s).roleView = s.roleView := by
  unfold settingsSaveCompletion
  split <;> rfl

end Events

/-! ### The step -/

theorem slot_roleOk (line : Bool) (ord : SlotOrder) (s : State) : (slot line ord s).roleView.Ok := by
  unfold slot
  split
  · exact restartNow_roleOk _ s
  · exact slotEvent_ok _ line ord s

theorem requestCommand_roleOk {p : TrunkId} {tag : Nat} {s t : State} (ok : s.roleView.Ok) (r : Request)
    (h : requestCommand p tag (requestCode r) (requestAct id r) s = .next t) : t.roleView.Ok := by
  cases h
  split
  · exact ok
  · exact serve_ok id p tag r ok

theorem eventCommand_roleOk {act : State → State} {s t : State} (ok : s.roleView.Ok) (kept : (act s).roleView.Ok)
    (h : eventCommand act s = .next t) : t.roleView.Ok := by
  cases h
  split
  · exact ok
  · exact kept

theorem exec_roleOk {i : Instr} {s t : State} (ok : s.roleView.Ok) (h : exec i s = .next t) : t.roleView.Ok := by
  cases i with
  | slot line order => exact eventCommand_roleOk ok (slot_roleOk line order s) h
  | holdoverExpiry => exact eventCommand_roleOk ok (holdoverExpiry_roleOk ok) h
  | laneGuardExpiry g l => exact eventCommand_roleOk ok (ok.of_eq (laneGuardExpiry_roleView s g l)) h
  | overBudget g => exact eventCommand_roleOk ok (ok.of_eq (overBudget_roleView s g)) h
  | missLimitReached g k sd => exact eventCommand_roleOk ok (ok.of_eq (missLimitReached_roleView s g k sd)) h
  | hangExpiry g l k => exact eventCommand_roleOk ok (ok.of_eq (hangExpiry_roleView s g l k)) h
  | fadeEnd p => exact eventCommand_roleOk ok (ok.of_eq (fadeEnd_roleView s p)) h
  | gapEnd p => exact eventCommand_roleOk ok (ok.of_eq (gapEnd_roleView s p)) h
  | liveSpeechLoss p => exact eventCommand_roleOk ok (ok.of_eq (liveSpeechLoss_roleView s p)) h
  | trunkFrameArrival p f => exact eventCommand_roleOk ok (ok.of_eq (trunkFrameArrival_roleView s p f)) h
  | spanUplinkFrameArrival p f => exact eventCommand_roleOk ok (ok.of_eq (spanUplinkFrameArrival_roleView s p f)) h
  | rdrec p tag sel part => exact requestCommand_roleOk ok (.rdrec sel part) h
  | carset p tag a => exact requestCommand_roleOk ok (.carset a) h
  | caron p tag n => exact requestCommand_roleOk ok (.caron n) h
  | caroff p tag n => exact requestCommand_roleOk ok (.caroff n) h
  | carclr p tag n => exact requestCommand_roleOk ok (.carclr n) h
  | trim p tag n g v => exact requestCommand_roleOk ok (.trim n g v) h
  | grpset p tag a => exact requestCommand_roleOk ok (.grpset a) h
  | sprst p tag n => exact requestCommand_roleOk ok (.sprst n) h
  | incset p tag n => exact requestCommand_roleOk ok (.incset n) h
  | incclr p tag => exact requestCommand_roleOk ok .incclr h
  | profset p tag a => exact requestCommand_roleOk ok (.profset a) h
  | annc p tag a => exact requestCommand_roleOk ok (.annc a) h
  | ancan p tag n => exact requestCommand_roleOk ok (.ancan n) h
  | voxset p tag a => exact requestCommand_roleOk ok (.voxset a) h
  | pgopen p tag n => exact requestCommand_roleOk ok (.pgopen n) h
  | pgdata p tag off bs => exact requestCommand_roleOk ok (.pgdata off bs) h
  | pgcommit p tag => exact requestCommand_roleOk ok .pgcommit h
  | blkerase p tag n => exact requestCommand_roleOk ok (.blkerase n) h
  | blkguard p tag n bar => exact requestCommand_roleOk ok (.blkguard n bar) h
  | msgdef p tag a => exact requestCommand_roleOk ok (.msgdef a) h
  | msgclr p tag n => exact requestCommand_roleOk ok (.msgclr n) h
  | trksel p tag n => exact requestCommand_roleOk ok (.trksel n) h
  | timset p tag limit v => exact requestCommand_roleOk ok (.timset limit v) h
  | save p tag => exact requestCommand_roleOk ok .save h
  | restart p tag n => exact requestCommand_roleOk ok (.restart n) h
  | causeclr p tag => exact requestCommand_roleOk ok .causeclr h
  | storeProgramCompletion r => exact eventCommand_roleOk ok (ok.of_eq (storeProgramCompletion_roleView s r)) h
  | storeEraseCompletion r => exact eventCommand_roleOk ok (ok.of_eq (storeEraseCompletion_roleView s r)) h
  | settingsSaveCompletion r => exact eventCommand_roleOk ok (ok.of_eq (settingsSaveCompletion_roleView s r)) h
  | powerOn => cases h; exact resetBlocks_roleOk false .poweredOn s
  | lineReset => cases h; exact lineReset_roleOk ok
  | restartTakesEffect => exact eventCommand_roleOk ok (restartTakesEffect_roleOk ok) h
  | resetInputRelease => cases h; exact ok.of_eq (resetInputRelease_roleView s)
  | suppliesSteady => cases h; exact ok.of_eq (suppliesSteady_roleView s)

end Sys2Proof.Machine

namespace Sys2Proof.Proofs
open Sys2Proof Sys2Proof.Machine

/-- Settles O50: the consumption of a slot settles the law whatever stood before it, a reset starts with no role, and TRKSEL, the one request that
moves roles, is carried out only where a port is settled ACTIVE, so that one is ACTIVE already and the reference state is LOCKED. -/
theorem stepKeepsRolesAndReference : Obligations.StepKeepsRolesAndReference := by
  intro s t law h
  rw [rolesOk_iff] at law ⊢
  unfold step at h
  split at h
  · cases h; exact law
  · next rest _ => exact exec_roleOk (s := { s with pending := rest }) law h

end Sys2Proof.Proofs
end

section
/-! The consumption of a slot with its holdover count (R117 to R121, R127 to R129): what it leaves of the pacer, and the notices it raises. -/
namespace Sys2Proof.Machine

/-! ### The pacer across a consumption -/

namespace Pacer
variable (p : Pacer) (first act : Bool)

/-- The next count in HOLDOVER reaches the limit (R128). -/
def due : Bool := p.ref == .holdover && decide (p.holdLimit ≤ p.holdCount + 1)

/-- The expiry where it comes before the settlement (R129). -/
def expiredFirst : Pacer × List Notice := if first then p.countHold else (p, [])

/-- The settlement after it. -/
def settledThen : Pacer × List Notice := (p.expiredFirst first).1.settle act

/-- The expiry where it comes after the settlement. -/
def expiredLast : Pacer × List Notice :=
  if !first && p.ref = .holdover then (p.settledThen first act).1.countHold else ((p.settledThen first act).1, [])

theorem due_iff : p.due = true ↔ p.ref = .holdover ∧ p.holdLimit ≤ p.holdCount + 1 := by
  rw [due, Bool.and_eq_true, beq_iff_eq, decide_eq_true_eq]

theorem due_of_other {p : Pacer} (other : p.ref ≠ .holdover) : p.due = false :=
  Bool.eq_false_iff.2 fun due => other (p.due_iff.1 due).1

theorem countHold_of_holdover {p : Pacer} (holdover : p.ref = .holdover) : p.countHold =
    ({ p with ref := if p.due then .freeRun else .holdover, holdCount := p.holdCount + 1 },
      if p.due then [.referenceState .freeRun] else []) := by
  have due : p.due = decide (p.holdLimit ≤ p.holdCount + 1) := by rw [Pacer.due, holdover]; rfl
  rw [countHold, if_pos holdover]
  split
  · next reached => rw [due, decide_eq_true reached]; rfl
  · next short => rw [due, decide_eq_false short, ← holdover]; rfl

theorem countHold_of_other {p : Pacer} (other : p.ref ≠ .holdover) : p.countHold = (p, []) := if_neg other

theorem countHold_notices : p.countHold.2 = if p.due then [.referenceState .freeRun] else [] := by
  by_cases holdover : p.ref = .holdover
  · rw [countHold_of_holdover holdover]
  · rw [countHold_of_other holdover, due_of_other holdover]; rfl

/-- A count in HOLDOVER touches the reference state and the count alone, and leaves neither LOCKED if it was not. -/
theorem countHold_frame : ∃ r c, p.countHold.1 = { p with ref := r, holdCount := c } ∧ (r = .locked ↔ p.ref = .locked) := by
  by_cases holdover : p.ref = .holdover
  · rw [countHold_of_holdover holdover]
    refine ⟨_, _, rfl, iff_of_false ?_ (by rw [holdover]; decide)⟩
    split <;> exact RefState.noConfusion
  · rw [countHold_of_other holdover]
    exact ⟨p.ref, p.holdCount, rfl, Iff.rfl⟩

theorem expiredFirst_frame : ∃ r c, (p.expiredFirst first).1 = { p with ref := r, holdCount := c } ∧ (r = .locked ↔ p.ref = .locked) := by
  cases first with
  | false => exact ⟨p.ref, p.holdCount, rfl, Iff.rfl⟩
  | true => exact p.countHold_frame

theorem expiredFirst_of_other {p : Pacer} (other : p.ref ≠ .holdover) : p.expiredFirst first = (p, []) := by
  cases first with
  | false => rfl
  | true => exact countHold_of_other other

theorem expiredFirst_notices : (p.expiredFirst first).2 = if first && p.due then [.referenceState .freeRun] else [] := by
  cases first with
  | false => rfl
  | true => exact p.countHold_notices

/-! ### The settlement of the reference state, case by case (Table 6-2) -/

theorem settle_of_stays {p : Pacer} (locked : p.ref = .locked) : p.settle true = (p, []) := by simp only [settle, locked]

theorem settle_of_gained {p : Pacer} (unlocked : p.ref ≠ .locked) :
    p.settle true = ({ p with ref := .locked, holdCount := 0, heldRate := p.rate }, [.referenceState .locked]) := by
  cases ref : p.ref with
  | locked => exact absurd ref unlocked
  | holdover => simp only [settle, ref]
  | freeRun => simp only [settle, ref]

theorem settle_of_lost {p : Pacer} (locked : p.ref = .locked) :
    p.settle false = ({ p with ref := if p.holdLimit = 0 then .freeRun else .holdover, holdCount := 0 },
      [.referenceState (if p.holdLimit = 0 then .freeRun else .holdover)]) := by simp only [settle, locked]

theorem settle_of_island {p : Pacer} (unlocked : p.ref ≠ .locked) : p.settle false = (p, []) := by
  cases ref : p.ref with
  | locked => exact absurd ref unlocked
  | holdover => simp only [settle, ref]
  | freeRun => simp only [settle, ref]

theorem settledThen_notices : (p.settledThen first act).2 = match act, p.ref with
    | true, .locked => []
    | true, _ => [.referenceState .locked]
    | false, .locked => [.referenceState (if p.holdLimit = 0 then .freeRun else .holdover)]
    | false, _ => [] := by
  obtain ⟨r, c, before, locked⟩ := p.expiredFirst_frame first
  rw [settledThen, before]
  by_cases was : p.ref = .locked
  · obtain rfl := locked.2 was
    cases act with
    | false => rw [settle_of_lost rfl, was]
    | true => rw [settle_of_stays rfl, was]
  · have unlocked : ({ p with ref := r, holdCount := c } : Pacer).ref ≠ .locked := mt locked.1 was
    cases act with
    | false =>
      rw [settle_of_island unlocked]
      cases ref : p.ref with
      | locked => exact absurd ref was
      | holdover => rfl
      | freeRun => rfl
    | true =>
      rw [settle_of_gained unlocked]
      cases ref : p.ref with
      | locked => exact absurd ref was
      | holdover => rfl
      | freeRun => rfl

theorem expiredLast_of_other {p : Pacer} (other : p.ref ≠ .holdover) : p.expiredLast first act = ((p.settledThen first act).1, []) := by
  simp only [expiredLast, other, decide_false, Bool.and_false, Bool.false_eq_true, if_false]

/-- A port is left ACTIVE: no expiry follows. -/
theorem expiredLast_of_active : p.expiredLast first true = ((p.settledThen first true).1, []) := by
  have locked : (p.settledThen first true).1.ref = .locked := (Pacer.settle_locked _ true).2 rfl
  rw [expiredLast, countHold_of_other (by rw [locked]; decide), ite_self]

theorem expiredLast_notices : (p.expiredLast first act).2 = if !first && !act && p.due then [.referenceState .freeRun] else [] := by
  cases act with
  | true => rw [expiredLast_of_active, Bool.not_true, Bool.and_false]; rfl
  | false =>
    by_cases holdover : p.ref = .holdover
    · cases first with
      | true => rfl
      | false =>
        have island : p.settledThen false false = (p, []) := settle_of_island (p := p) (by rw [holdover]; decide)
        simp only [expiredLast, island, holdover, countHold_notices, decide_true, Bool.not_false, Bool.true_and, if_true]
    · rw [expiredLast_of_other _ _ holdover, due_of_other holdover, Bool.and_false]; rfl

/-- What a consumption that leaves a port ACTIVE makes of the pacer, the steered rate apart (R126, R127). -/
theorem expiredLast_active : let q := (p.expiredLast first true).1
    q.ref = .locked ∧ q.holdCount = (if p.ref = .locked then p.holdCount else 0) ∧ q.holdLimit = p.holdLimit ∧ q.trim = p.trim := by
  obtain ⟨r, c, before, locked⟩ := p.expiredFirst_frame first
  rw [expiredLast_of_active, settledThen]
  by_cases was : p.ref = .locked
  · have other : p.ref ≠ .holdover := by rw [was]; decide
    rw [expiredFirst_of_other first other, settle_of_stays was, if_pos was]
    exact ⟨was, rfl, rfl, rfl⟩
  · rw [before, settle_of_gained (mt locked.1 was), if_neg was]
    exact ⟨rfl, rfl, rfl, rfl⟩

/-- What a consumption that leaves no port ACTIVE makes of the pacer (R127, R128). -/
theorem expiredLast_island : (p.expiredLast first false).1 =
    if p.ref = .locked then { p with ref := if p.holdLimit = 0 then .freeRun else .holdover, holdCount := 0 } else p.countHold.1 := by
  by_cases was : p.ref = .locked
  · have other : p.ref ≠ .holdover := by rw [was]; decide
    rw [expiredLast_of_other _ _ other, settledThen, expiredFirst_of_other first other, settle_of_lost was, if_pos was]
  · rw [if_neg was]
    obtain ⟨r, c, before, locked⟩ := p.expiredFirst_frame first
    have island : p.settledThen first false = ((p.expiredFirst first).1, []) := by
      rw [settledThen, before, settle_of_island (mt locked.1 was)]
    rw [expiredLast, island]
    cases first with
    | true => rfl
    | false =>
      by_cases holdover : p.ref = .holdover
      · simp only [holdover, decide_true, Bool.not_false, Bool.true_and, if_true]
        rfl
      · simp only [holdover, decide_false, Bool.and_false, Bool.false_eq_true, if_false, countHold_of_other holdover]
        rfl

end Pacer

/-! ### The consumption whole -/

variable (first : Bool) (s : State)

theorem consumption_fps : (consumption first s).1.fps =
    (s.fps.expiredLast first s.tif.consumed.settle.1.active.isSome).1.steer (s.fps.ref = .locked) := rfl

theorem consumption_mga : (consumption first s).1.mga = s.mga.raiseAll
    ((s.fps.expiredFirst first).2 ++ linkNotice .a s.tif.a s.tif.a.consume.1 ++ linkNotice .b s.tif.b s.tif.b.consume.1 ++
      s.tif.consumed.settle.2 ++ (s.fps.settledThen first s.tif.consumed.settle.1.active.isSome).2 ++
      (s.fps.expiredLast first s.tif.consumed.settle.1.active.isSome).2) := rfl

theorem Pacer.steer_frame (p : Pacer) (was : Bool) : ∃ rate draws, p.steer was = { p with heldRate := rate, rateDraws := draws } := by
  unfold steer
  split <;> exact ⟨_, _, rfl⟩

/-- The pacer after a consumption that leaves a port ACTIVE. -/
theorem consumption_active (active : s.tif.consumed.settle.1.active.isSome = true) : let q := (consumption first s).1.fps
    q.ref = .locked ∧ q.holdCount = (if s.fps.ref = .locked then s.fps.holdCount else 0) := by
  obtain ⟨rate, draws, steered⟩ := ((s.fps.expiredLast first true).1).steer_frame (s.fps.ref = .locked)
  obtain ⟨ref, count, -, -⟩ := s.fps.expiredLast_active first
  rw [consumption_fps, active, steered]
  exact ⟨ref, count⟩

theorem consumption_limits : (consumption first s).1.fps.holdLimit = s.fps.holdLimit ∧ (consumption first s).1.fps.trim = s.fps.trim := by
  obtain ⟨rate, draws, steered⟩ :=
    ((s.fps.expiredLast first s.tif.consumed.settle.1.active.isSome).1).steer_frame (s.fps.ref = .locked)
  rw [consumption_fps, steered]
  cases s.tif.consumed.settle.1.active.isSome with
  | true => exact (s.fps.expiredLast_active first).2.2
  | false =>
    obtain ⟨r, c, counted, -⟩ := s.fps.countHold_frame
    rw [s.fps.expiredLast_island first]
    split
    · exact ⟨rfl, rfl⟩
    · rw [counted]; exact ⟨rfl, rfl⟩

/-- The pacer after a consumption that leaves no port ACTIVE. -/
theorem consumption_island (island : s.tif.consumed.settle.1.active = none) : let q := (consumption first s).1.fps
    q.heldRate = s.fps.heldRate ∧
    (s.fps.ref = .locked → q.ref = (if s.fps.holdLimit = 0 then .freeRun else .holdover) ∧ q.holdCount = 0) ∧
    (s.fps.ref = .holdover → q.ref = (if s.fps.due then .freeRun else .holdover) ∧ q.holdCount = s.fps.holdCount + 1) ∧
    (s.fps.ref = .freeRun → q.ref = .freeRun ∧ q.holdCount = s.fps.holdCount) := by
  have unlocked : (s.fps.expiredLast first false).1.ref ≠ .locked := by
    have none : s.tif.consumed.settle.1.active.isSome = false := by rw [island]; rfl
    have settled := consumption_locked first s
    rw [consumption_fps, none, Pacer.steer_ref] at settled
    exact fun locked => Bool.noConfusion (settled.1 locked)
  have kept : ∀ was : Bool, (s.fps.expiredLast first false).1.steer was = (s.fps.expiredLast first false).1 :=
    fun was => if_neg fun steered => unlocked steered.2
  have pacer : (consumption first s).1.fps = if s.fps.ref = .locked then
      { s.fps with ref := if s.fps.holdLimit = 0 then .freeRun else .holdover, holdCount := 0 } else s.fps.countHold.1 := by
    rw [consumption_fps, island, Option.isSome_none, kept, Pacer.expiredLast_island]
  rw [pacer]
  cases ref : s.fps.ref with
  | locked => exact ⟨rfl, fun _ => ⟨rfl, rfl⟩, RefState.noConfusion, RefState.noConfusion⟩
  | holdover =>
    rw [Pacer.countHold_of_holdover ref]
    exact ⟨rfl, RefState.noConfusion, fun _ => ⟨rfl, rfl⟩, RefState.noConfusion⟩
  | freeRun =>
    rw [Pacer.countHold_of_other (by rw [ref]; decide)]
    exact ⟨rfl, RefState.noConfusion, RefState.noConfusion, fun _ => ⟨ref, rfl⟩⟩

end Sys2Proof.Machine
end

section
/-! The works of a slot (R47, R71, R97, R146), in any order: each reads what no other changes, so they leave one state but for the order of their
notices. -/
namespace Sys2Proof.Machine

/-! ### What each work leaves -/

/-- The notices of the mixer's work. -/
def MixInput.mixSaid (i : MixInput) : List Notice := (List.finRange 8).flatMap i.clips ++ (List.finRange 8).flatMap fun g => (i.limit g).2

theorem mixerWork_eq (i : MixInput) (s : State) :
    mixerWork i s = { s with dmx := .make fun g => (i.limit g).1, mga := s.mga.raiseAll i.mixSaid } := rfl

/-- The break-in unit after its work. -/
def MixInput.played (i : MixInput) (s : State) : Bku := s.bkuView.slotWork i.hfn s.ict.row.announceMask i.play0 i.play1 i.lanes

theorem playerWork_eq (i : MixInput) (s : State) :
    playerWork i s = { s with bku := (i.played s).unit, mga := s.mga.raiseAll (i.played s).out } := rfl

/-- Slot `n` minus four is open. -/
def Spans.closing (v : Spans) (n : FrameNo) : Bool := (openSlots v.window).contains (n - 4)

/-- The span interface after its part of the close of slot `n` minus four, where that is open, with the notices of the close alone. -/
def Spans.slotClosed (v : Spans) (lanes : Table Group 8) (n : FrameNo) : Spans :=
  if v.closing n then ({ v with out := [] } : Spans).close lanes (n - 4) else { v with out := [] }

/-- What the close of the slot works on in the combiner. -/
def MixInput.closeInput (i : MixInput) (v : Spans) : CloseInput := ⟨i.hfn - 4, i.pre.ctb, i.lanes, v.remotes, v.window⟩

/-- The combiner after the span side's work, where the ports have been judged to `j` and the close has left `v`. -/
def MixInput.combined (i : MixInput) (u : Combiner) (j v : Spans) : Combiner :=
  if j.closing i.hfn then
    { ({ u with window := v.window } : Combiner).afterClose (i.closeInput v) with
      window := v.window.filter (fun x => x.hfn != i.hfn - 4) ++ [⟨i.hfn, []⟩] }
  else { u with window := v.window ++ [⟨i.hfn, []⟩], uplink := .fill zeroBlock }

/-- The notices of the span side's work. -/
def MixInput.spanSaid (i : MixInput) (u : Combiner) (j v : Spans) : List Notice :=
  j.out ++ v.out ++
    if j.closing i.hfn then
      clipNotices ((i.closeInput v).sums (({ u with window := v.window } : Combiner).afterClose (i.closeInput v)).gates) else []

/-- The ports judged (R71). -/
def State.judged (s : State) : Spans := s.spans.missSlots s.lal

/-- The ports judged and the slot closed. -/
def MixInput.spansAfter (i : MixInput) (s : State) : Spans := s.judged.slotClosed i.lanes i.hfn

theorem spanWork_eq (i : MixInput) (s : State) : spanWork i s =
    { s with
      sif := { s.sif with ports := (i.spansAfter s).ports, remotes := (i.spansAfter s).remotes }
      ucb := i.combined s.ucb s.judged (i.spansAfter s)
      mga := s.mga.raiseAll (i.spanSaid s.ucb s.judged (i.spansAfter s)) } := by
  have same : (s.withSpans s.judged).spans = { s.judged with out := [] } := rfl
  unfold MixInput.combined MixInput.spanSaid
  cases closing : s.judged.closing i.hfn with
  | true =>
    have closed : i.spansAfter s = (s.withSpans s.judged).spans.close i.lanes (i.hfn - 4) := by
      rw [MixInput.spansAfter, Spans.slotClosed, closing, same]; rfl
    have opened : (openSlots (s.withSpans s.judged).ucb.window).contains (i.hfn - 4) = true := closing
    rw [closed, Agent.raiseAll_append, Agent.raiseAll_append]
    exact if_pos opened
  | false =>
    have kept : i.spansAfter s = { s.judged with out := [] } := by rw [MixInput.spansAfter, Spans.slotClosed, closing]; rfl
    have absent : ¬(openSlots (s.withSpans s.judged).ucb.window).contains (i.hfn - 4) = true := Bool.eq_false_iff.1 closing
    rw [kept]
    simp only [Bool.false_eq_true, if_false, List.append_nil]
    exact if_neg absent

/-! ### All of them -/

/-- The notices of the three works in the order of the works. -/
def workNotices (o : WorkOrder) (mix spans play : List Notice) : List Notice :=
  match o with
  | .mixerSpanPlayers => mix ++ spans ++ play
  | .mixerPlayersSpan => mix ++ play ++ spans
  | .spanMixerPlayers => spans ++ mix ++ play
  | .spanPlayersMixer => spans ++ play ++ mix
  | .playersMixerSpan => play ++ mix ++ spans
  | .playersSpanMixer => play ++ spans ++ mix

/-- The works of a slot in any order. -/
theorem works_eq (o : WorkOrder) (i : MixInput) (s : State) : works o i s =
    { s with
      dmx := .make fun g => (i.limit g).1
      sif := { s.sif with ports := (i.spansAfter s).ports, remotes := (i.spansAfter s).remotes }
      ucb := i.combined s.ucb s.judged (i.spansAfter s)
      bku := (i.played s).unit
      mga := s.mga.raiseAll (workNotices o i.mixSaid (i.spanSaid s.ucb s.judged (i.spansAfter s)) (i.played s).out) } := by
  cases o
  all_goals simp only [works, mixerWork_eq, playerWork_eq, spanWork_eq, workNotices, Agent.raiseAll_append]
  all_goals rfl

end Sys2Proof.Machine
end

section
/-! A slot event up to its tail: the consumption, the lane tables, the works and the span frames, put together (R29, R30, R90, R91, R117 to R129). -/
namespace Sys2Proof.Machine

/-! ### The judgement of ports reads configurations alone -/

theorem configOf_marked (ctb : Table Carrier 64) (b : BreakIn) (lal : Table Group 8) (g : GroupId) :
    configOf (markLanes ctb b (guardStep lal)) g = configOf lal g := by
  simp only [configOf, markLanes, guardStep, Table.get_make]

theorem servedBy_congr {lal lal' : Table Group 8} (config : ∀ g, configOf lal' g = configOf lal g) (p : SpanId) :
    servedBy lal' p = servedBy lal p := by
  simp only [servedBy, config]

theorem missSlots_congr {lal lal' : Table Group 8} (config : ∀ g, configOf lal' g = configOf lal g) (v : Spans) :
    v.missSlots lal' = v.missSlots lal := by
  have judged : Spans.missPort lal' = Spans.missPort lal := by
    funext v p
    simp only [Spans.missPort, enabled, Spans.movePort, servedBy_congr config]
  rw [Spans.missSlots, judged]
  rfl

/-! ### The hub before the tail -/

section Worked
variable (n : FrameNo) (ord : SlotOrder) (s : State)

/-- The input of the works of the slot event of `n`. -/
def State.slotInput (s : State) (n : FrameNo) (ord : SlotOrder) : MixInput := Machine.slotInput n s (openSlot n ord s).2.active

theorem openSlot_judged : (openSlot n ord s).1.judged = s.judged := missSlots_congr (configOf_marked s.ctb s.bku s.lal) s.spans

theorem slotWorked_eq :
    let i := s.slotInput n ord
    let v := i.spansAfter s
    slotWorked n ord s = { (openSlot n ord s).1 with
      dmx := .make fun g => (i.limit g).1
      sif :=
        { ports := .make fun p => { v.ports.get p with quiet := (v.ports.get p).quiet - 1 }
          remotes := v.remotes
          out := .make fun p => sentOn i p (v.ports.get p) }
      ucb := i.combined s.ucb s.judged v
      bku := (i.played s).unit
      mga := (openSlot n ord s).1.mga.raiseAll
        (workNotices ord.works i.mixSaid (i.spanSaid s.ucb s.judged v) (i.played s).out) } := by
  intro i v
  have after : i.spansAfter (openSlot n ord s).1 = v := congrArg (Spans.slotClosed · i.lanes i.hfn) (openSlot_judged n ord s)
  have worked := works_eq ord.works i (openSlot n ord s).1
  rw [after, openSlot_judged] at worked
  have sent : slotWorked n ord s = sendSpans i (works ord.works i (openSlot n ord s).1) := rfl
  rw [sent, worked]
  rfl

/-- The notices of the consumption, each where it is due. -/
theorem openSlot_mga : let t := s.tif.consumed.settle
    (openSlot n ord s).1.mga = Agent.raiseAll { s.mga with respA := none, respB := none }
      ((if ord.expiryFirst && s.fps.due then [.referenceState .freeRun] else []) ++
        linkNotice .a s.tif.a s.tif.a.consume.1 ++ linkNotice .b s.tif.b s.tif.b.consume.1 ++ t.2 ++
        (match t.1.active.isSome, s.fps.ref with
          | true, .locked => []
          | true, _ => [.referenceState .locked]
          | false, .locked => [.referenceState (if s.fps.holdLimit = 0 then .freeRun else .holdover)]
          | false, _ => []) ++
        if !ord.expiryFirst && t.1.active.isNone && s.fps.due then [.referenceState .freeRun] else []) := by
  intro t
  have consumed := consumption_mga ord.expiryFirst { s with mga := { s.mga with respA := none, respB := none } }
  rw [Pacer.expiredFirst_notices, Pacer.settledThen_notices, Pacer.expiredLast_notices, Option.not_isSome] at consumed
  exact consumed

end Worked

/-! ### The mixer's part -/

theorem MixInput.limit_eq (i : MixInput) (g : GroupId) : i.limit g =
    if (configOf i.pre.lal g).form != .unused then
      (i.pre.dmx.get g).update i.hfn g (configOf i.pre.lal g) (i.group g) (derating (i.pre.sif.remotes.get g))
    else (i.pre.dmx.get g, []) := by
  unfold MixInput.limit
  dsimp only
  split
  · next unused => rw [unused]; rfl
  · next used => rw [if_pos (bne_iff_ne.2 used)]

/-- What is said of each member of a kind. -/
theorem flatMap_filter_eq {α β : Type} (p : α → Bool) (f : α → List β) (xs : List α) :
    (xs.filter p).flatMap f = xs.flatMap fun x => if p x then f x else [] := by
  induction xs with
  | nil => rfl
  | cons x xs ih =>
    rw [List.flatMap_cons, ← ih]
    cases h : p x with
    | true => rw [List.filter_cons_of_pos h, List.flatMap_cons]; rfl
    | false => rw [List.filter_cons_of_neg (Bool.eq_false_iff.1 h)]; rfl

theorem MixInput.mixSaid_eq (i : MixInput) : i.mixSaid =
    (((List.finRange 8).filter fun g => (configOf i.pre.lal g).form != .unused).flatMap fun g => laneClips g (i.group g)) ++
      (List.finRange 8).flatMap fun g => (i.limit g).2 := by
  have clips : ∀ g, i.clips g = if (configOf i.pre.lal g).form != .unused then laneClips g (i.group g) else [] := by
    intro g
    unfold MixInput.clips
    split
    · next unused => rw [unused]; rfl
    · next used => rw [if_pos (bne_iff_ne.2 used)]
  rw [MixInput.mixSaid, flatMap_filter_eq, funext clips]

/-! ### Span downlink frames (R30, R90, R91) -/

section Sent
variable {i : MixInput} {p : SpanId} {x : SpanPort} {g : GroupId} {sd : Side}

theorem sentOn_of_silent (silent : servedBy i.pre.lal p = none ∨ x.quiet ≠ 0) : sentOn i p x = none := by
  unfold sentOn
  split
  · next served =>
    obtain unserved | quiet := silent
    · cases unserved.symm.trans served
    · rw [if_neg quiet]
  · rfl

theorem sentOn_of_served (served : servedBy i.pre.lal p = some (g, sd)) (quiet : x.quiet = 0) :
    sentOn i p x = some (downlinkFrame i g) := by
  simp only [sentOn, served, if_pos quiet]

theorem directiveFor_eq (cfg : GroupConfig) (r : Remote) (k : Pos) : directiveFor cfg r k =
    if k.val < cfg.remotes ∧ (cfg.form != .unused) = true then ⟨true, r.feed, r.inService⟩ else ⟨false, .a, false⟩ := by
  have configured : cfg.configured k = true ↔ k.val < cfg.remotes ∧ (cfg.form != .unused) = true := by
    rw [configured_iff, bne_iff_ne, and_comm]
  simp only [directiveFor, configured]

theorem mapEntry_spec (ctb : Table Carrier 64) (x : Lane) :
    let code := (x.owner.map fun c => (ctb.get c).fields.rfCode).getD 0
    (x.state = .free → mapEntry ctb x = ⟨.idle, 0⟩) ∧ (x.state = .guard → mapEntry ctb x = ⟨.retuning, code⟩) ∧
    (x.state = .live → mapEntry ctb x = ⟨.live, code⟩) := by
  unfold mapEntry
  refine ⟨fun state => ?_, fun state => ?_, fun state => ?_⟩
  · rw [state]
  · rw [state]; cases x.owner <;> rfl
  · rw [state]; cases x.owner <;> rfl

end Sent

end Sys2Proof.Machine
end

section
/-! The judgement of one span port at a slot event (R71 to R73). -/
namespace Sys2Proof.Machine

/-- A port that has missed its slot, its link not yet moved (R71). -/
def SpanPort.missed (x : SpanPort) : SpanPort := { x with missedSlots := bump x.missedSlots }

/-- A port that has missed its slot, judged (R71, R72). -/
def SpanPort.judged (x : SpanPort) : SpanPort := { x.missed.move .bad with arrived := false }

section Judged
variable {lal : Table Group 8} {v : Spans} {p : SpanId}

theorem Spans.missPort_of_unserved (unserved : servedBy lal p = none) : v.missPort lal p = v := by
  rw [Spans.missPort, enabled, unserved]
  rfl

theorem Spans.missPort_of_arrived {g : GroupId} {sd : Side} (served : servedBy lal p = some (g, sd)) (arrived : (v.ports.get p).arrived = true) :
    v.missPort lal p = { v with ports := v.ports.put p { v.ports.get p with arrived := false } } := by
  simp only [Spans.missPort, enabled, served, Option.isSome_some, if_true, arrived, Table.edit]

theorem Spans.missPort_of_silent {g : GroupId} {sd : Side} (served : servedBy lal p = some (g, sd)) (silent : (v.ports.get p).arrived = false) :
    let m := ({ v with ports := v.ports.put p (v.ports.get p).missed } : Spans).movePort lal p .bad
    v.missPort lal p = { m with ports := m.ports.edit p fun y => { y with arrived := false } } := by
  simp only [Spans.missPort, enabled, served, Option.isSome_some, if_true, silent, Bool.false_eq_true, if_false, SpanPort.missed]

/-- The link of a port that has missed. -/
theorem Spans.linkMoved_missed (v : Spans) (p : SpanId) :
    ({ v with ports := v.ports.put p (v.ports.get p).missed } : Spans).linkMoved p .bad =
      { v with
        ports := v.ports.put p ((v.ports.get p).missed.move .bad)
        out := v.out ++ if ((v.ports.get p).missed.move .bad).link = (v.ports.get p).link then []
          else [.spanState p ((v.ports.get p).missed.move .bad).link] } := by
  simp only [Spans.linkMoved, Table.get_put_self, Table.put_put]
  rfl

/-- A port that misses and does not go DOWN from UP. -/
theorem Spans.missPort_of_kept {g : GroupId} {sd : Side} (served : servedBy lal p = some (g, sd)) (silent : (v.ports.get p).arrived = false)
    (kept : ¬((v.ports.get p).link = .up ∧ (v.ports.get p).judged.link = .down)) :
    v.missPort lal p =
      { v with
        ports := v.ports.put p (v.ports.get p).judged
        out := v.out ++ if (v.ports.get p).judged.link = (v.ports.get p).link then [] else [.spanState p (v.ports.get p).judged.link] } := by
  have stays : ¬((v.ports.get p).missed.link = .up ∧ ((v.ports.get p).missed.move .bad).link = .down) := kept
  have moved := ({ v with ports := v.ports.put p (v.ports.get p).missed } : Spans).movePort_eq lal p .bad
  rw [Table.get_put_self, if_neg stays, Spans.linkMoved_missed] at moved
  rw [Spans.missPort_of_silent served silent, moved]
  simp only [Table.edit, Table.get_put_self, Table.put_put]
  rfl

/-- A port that misses and keeps its link. -/
theorem Spans.missPort_of_same {g : GroupId} {sd : Side} (served : servedBy lal p = some (g, sd)) (silent : (v.ports.get p).arrived = false)
    (same : (v.ports.get p).judged.link = (v.ports.get p).link) :
    v.missPort lal p = { v with ports := v.ports.put p (v.ports.get p).judged } := by
  have kept := Spans.missPort_of_kept served silent fun lost => nomatch lost.1.symm.trans (same.symm.trans lost.2)
  rw [if_pos same, List.append_nil] at kept
  exact kept

/-- A port that goes DOWN from UP silences the contexts of its group and side. -/
theorem Spans.missPort_of_lost {g : GroupId} {sd : Side} (served : servedBy lal p = some (g, sd)) (silent : (v.ports.get p).arrived = false)
    (up : (v.ports.get p).link = .up) (down : (v.ports.get p).judged.link = .down) :
    v.missPort lal p =
      ({ v with ports := v.ports.put p (v.ports.get p).judged, out := v.out ++ [.spanState p .down] } : Spans).workAll g
        fun k => (v.remote g k).silenced g sd k := by
  have lost : (v.ports.get p).missed.link = .up ∧ ((v.ports.get p).missed.move .bad).link = .down := ⟨up, down⟩
  have change : ¬((v.ports.get p).missed.move .bad).link = (v.ports.get p).link := by rw [lost.2, up]; decide
  have moved := ({ v with ports := v.ports.put p (v.ports.get p).missed } : Spans).movePort_eq lal p .bad
  rw [Table.get_put_self, if_pos lost, served, Option.elim_some, Spans.linkMoved_missed, if_neg change, lost.2, Spans.foldl_silence] at moved
  rw [Spans.missPort_of_silent served silent, moved]
  simp only [Spans.workAll, Table.edit, Table.get_put_self, Table.put_put]
  rfl

end Judged

/-! ### What the judgement makes of the port, by its link -/

section ByLink
variable {x : SpanPort}

theorem SpanPort.judged_of_down (down : x.link = .down) : x.judged = { x.missed with arrived := false } := by
  rw [SpanPort.judged, SpanPort.move_down_bad (y := x.missed) down]

theorem SpanPort.judged_of_aligning (aligning : x.link = .aligning) :
    x.judged = { x.missed with arrived := false, link := .down, goodRun := 0 } := by
  rw [SpanPort.judged, SpanPort.move_aligning_bad (y := x.missed) aligning]

theorem SpanPort.judged_of_up (up : x.link = .up) (low : x.badRun < 7) :
    x.judged = { x.missed with arrived := false, badRun := x.badRun + 1 } := by
  rw [SpanPort.judged, SpanPort.move_up_bad (y := x.missed) up, if_neg (show ¬7 ≤ x.missed.badRun from not_le.2 low)]
  rfl

theorem SpanPort.judged_of_lost (up : x.link = .up) (high : 7 ≤ x.badRun) :
    x.judged = { x.missed with arrived := false, link := .down, goodRun := 0, badRun := 0 } := by
  rw [SpanPort.judged, SpanPort.move_up_bad (y := x.missed) up, if_pos (show 7 ≤ x.missed.badRun from high)]

end ByLink

/-- The judgement of one port, case by case. -/
theorem missPort_spec (v : Spans) (lal : Table Group 8) (p : SpanId) :
    let w := Spans.missPort lal v p
    let x := v.ports.get p
    let y : SpanPort := { x with missedSlots := min (x.missedSlots + 1) 4294967295, arrived := false }
    (servedBy lal p = none → w = v) ∧
    ∀ (g : GroupId) (sd : Side), servedBy lal p = some (g, sd) →
      (x.arrived = true → w = { v with ports := v.ports.put p { x with arrived := false } }) ∧
      (x.arrived = false → x.link = .down → w = { v with ports := v.ports.put p y }) ∧
      (x.arrived = false → x.link = .aligning → w =
        { v with ports := v.ports.put p { y with link := .down, goodRun := 0 }, out := v.out ++ [.spanState p .down] }) ∧
      (x.arrived = false → x.link = .up → x.badRun < 7 → w = { v with ports := v.ports.put p { y with badRun := x.badRun + 1 } }) ∧
      (x.arrived = false → x.link = .up → 7 ≤ x.badRun →
        w.ports = v.ports.put p { y with link := .down, goodRun := 0, badRun := 0 } ∧
        (∀ h : GroupId, h ≠ g → w.remotes.get h = v.remotes.get h) ∧
        (∀ k : Pos, let c := v.ctx g k sd
          w.remote g k = if c.state = .tracking then
            (v.remote g k).setCtx sd { c with state := .waiting, reason := some .silent, missRun := 0 } else v.remote g k) ∧
        w.window = v.window.map (fun o =>
          { o with filed := o.filed.filter fun f => ¬(f.group = g ∧ f.side = sd ∧ (v.ctx g f.pos sd).state = .tracking) }) ∧
        w.out = v.out ++ .spanState p .down :: ((List.finRange 6).filter fun k => (v.ctx g k sd).state = .tracking).map
          fun k => .remoteState g k sd .waiting (some .silent)) := by
  intro w x y
  refine ⟨Spans.missPort_of_unserved, fun g sd served => ⟨Spans.missPort_of_arrived served, fun silent down => ?_,
    fun silent aligning => ?_, fun silent up low => ?_, fun silent up high => ?_⟩⟩
  · have judged := SpanPort.judged_of_down down
    have same : x.judged.link = x.link := (congrArg SpanPort.link judged).trans rfl
    have kept := Spans.missPort_of_same served silent same
    rw [judged] at kept
    exact kept
  · have judged := SpanPort.judged_of_aligning aligning
    have kept := Spans.missPort_of_kept served silent fun lost => nomatch aligning.symm.trans lost.1
    rw [judged, if_neg fun same => nomatch same.trans aligning] at kept
    exact kept
  · have judged := SpanPort.judged_of_up up low
    have same : x.judged.link = x.link := (congrArg SpanPort.link judged).trans rfl
    have kept := Spans.missPort_of_same served silent same
    rw [judged] at kept
    exact kept
  · have judged := SpanPort.judged_of_lost up high
    have lost : w = _ := Spans.missPort_of_lost served silent up (by rw [judged])
    rw [lost, judged]
    refine ⟨rfl, fun h other => Table.get_put_ne _ _ other.symm, fun k => ?_, window_filter_congr _ fun f => ?_, ?_⟩
    · rw [Spans.remote_workAll]
      by_cases tracking : (v.ctx g k sd).state = .tracking
      · exact (Remote.silenced_of_tracking tracking).trans (if_pos tracking).symm
      · exact (Remote.silenced_of_other tracking).trans (if_neg tracking).symm
    · rw [Remote.silenced_gone]
      exact f.group_stays_eq g _
    · simp only [Spans.workAll, Remote.silenced_notices, flatMap_guard, List.append_assoc, List.singleton_append]
      rfl

end Sys2Proof.Machine
end

section
/-! The tail of a slot: control cells (R191 to R196), the line sample, and the frames of the slot completed (R124, R198, R201). -/
namespace Sys2Proof.Machine

/-! ### Control cells -/

section Cells
variable {seen : State → State} {p : TrunkId} {frame : List Byte} {s : State} {tag : Nat}

theorem takeFrameCell_of_empty (read : readCell (frameCell frame) = .empty) : takeFrameCell seen p (some frame) s = s := by
  simp only [takeFrameCell, takeCell, read]

theorem takeFrameCell_of_badCheck (read : readCell (frameCell frame) = .badCheck) :
    takeFrameCell seen p (some frame) s = s.respond p ⟨0, 0, .malformed, []⟩ := by
  simp only [takeFrameCell, takeCell, read]

theorem takeFrameCell_of_malformed {kind : Nat} (read : readCell (frameCell frame) = .malformed tag kind) :
    takeFrameCell seen p (some frame) s = s.respond p ⟨tag, kind, .malformed, []⟩ := by
  simp only [takeFrameCell, takeCell, read]

theorem takeFrameCell_of_request {r : Request} (read : readCell (frameCell frame) = .request tag r) :
    takeFrameCell seen p (some frame) s = serve p tag (requestCode r) (requestAct seen r) s := by
  simp only [takeFrameCell, takeCell, read]

/-- A request as a command of its own is served with the state as it stands. -/
theorem exec_commandOf (p : TrunkId) (tag : Nat) (r : Request) (s : State) :
    exec (commandOf p tag r) s = requestCommand p tag (requestCode r) (requestAct id r) s := by cases r <;> rfl

theorem serve_congr {code : Nat} {act act' : State → Answer} (same : act s = act' s) : serve p tag code act s = serve p tag code act' s := by
  simp only [serve, check, same]

/-- Only an RDREC looks at the view. -/
theorem requestAct_view (r : Request) (plain : (∀ sel part, r ≠ .rdrec sel part) ∨ seen s = s) :
    requestAct seen r s = requestAct id r s := by
  cases r with
  | rdrec sel part =>
    have now : seen s = s := plain.resolve_left fun other => other sel part rfl
    exact congrArg (rdrecOf · sel part s) now
  | _ => rfl

/-- A request taken from a cell has the effect of the command of its own (R191, R192). -/
theorem exec_of_request {r : Request} (read : readCell (frameCell frame) = .request tag r) (awake : s.held = false)
    (plain : (∀ sel part, r ≠ .rdrec sel part) ∨ seen s = s) :
    exec (commandOf p tag r) s = .next (takeFrameCell seen p (some frame) s).refreshFrames := by
  rw [exec_commandOf, takeFrameCell_of_request read, serve_congr (requestAct_view r plain), requestCommand, awake]
  rfl

theorem serve_of_untagged (code : Nat) (act : State → Answer) : serve p 0 code act s = s.respond p ⟨0, code, .malformed, []⟩ := rfl

theorem serve_read (tagged : tag ≠ 0) (act : State → Answer) :
    serve p tag 1 act s = (act s).state.respond p ⟨tag, 1, (act s).status, (act s).body⟩ := by
  simp [serve, check, tagged, rdrecCode]

variable {v : State} {sel : Selector} {part : Nat}

theorem rdrecOf_of_refused {st : Status} (found : v.record sel = .refused st) : rdrecOf v sel part s = refuse st s := by
  rw [rdrecOf, found]

theorem rdrecOf_of_record {bs : List Byte} (found : v.record sel = .record bs) (within : part < partCount bs.length) :
    rdrecOf v sel part s = okWith s (partBody bs part) := by
  simp only [rdrecOf, found, if_neg (not_le.2 within)]

theorem rdrecOf_of_beyond {bs : List Byte} (found : v.record sel = .record bs) (beyond : partCount bs.length ≤ part) :
    rdrecOf v sel part s = refuse .range s := by
  simp only [rdrecOf, found, if_pos beyond]

/-- An RDREC taken from a cell, by what its view holds (R196, R210). -/
theorem takeFrameCell_of_read (read : readCell (frameCell frame) = .request tag (.rdrec sel part)) (tagged : tag ≠ 0) {a : Answer}
    (answer : rdrecOf (seen s) sel part s = a) :
    takeFrameCell seen p (some frame) s = a.state.respond p ⟨tag, 1, a.status, a.body⟩ := by
  subst answer
  exact (takeFrameCell_of_request read).trans (serve_read tagged _)

end Cells

/-! ### The marks of the slot across its tail -/

theorem serve_slotMarks (v : State → State) (p : TrunkId) (tag : Nat) (r : Request) (s : State) :
    (serve p tag (requestCode r) (requestAct v r) s).slotMarks = s.slotMarks := by
  unfold serve
  obtain ⟨-, refused⟩ | ⟨-, -, -, refused⟩ | ⟨-, -, heard⟩ := check_cases p tag (requestCode r) (requestAct v r) s
  · rw [refused]; rfl
  · rw [refused]; rfl
  · rw [heard]; exact requestAct_slotMarks v r s

theorem takeFrameCell_slotMarks (v : State → State) (p : TrunkId) (f : Option (List Byte)) (s : State) :
    (takeFrameCell v p f s).slotMarks = s.slotMarks := by
  unfold takeFrameCell
  split
  · unfold takeCell
    split
    · rfl
    · rfl
    · rfl
    · exact serve_slotMarks v p _ _ s
  · rfl

theorem Incident.sample_sampleHfn (i : Incident) (n : FrameNo) (line : Bool) : (i.sample n line).sampleHfn = some n := by
  unfold Incident.sample
  split <;> rfl

/-- The line sample marks its slot, and no more (R182). -/
theorem lineSample_slotMarks (n : FrameNo) (line : Bool) (s : State) :
    (lineSample n line s).slotMarks = { s.slotMarks with sampled := some n } := by
  have sampled := s.ict.sample_sampleHfn n line
  have levelled : ({ s with ict := s.ict.sample n line } : State).slotMarks = { s.slotMarks with sampled := some n } := by
    simp only [State.slotMarks, sampled]
  unfold lineSample changeLevels
  dsimp only
  split
  · exact levelled
  · exact (slotMarks_of_standing (incidentEvent_standing _ _ _)).trans levelled

/-- The tail of a slot, in any order, leaves the marks of the slot with that of its line sample. -/
theorem tail_slotMarks (o : TailOrder) (n : FrameNo) (line : Bool) (v : State → State) (f g : Option (List Byte)) (s : State) :
    (tail o (lineSample n line) (takeFrameCell v .a f) (takeFrameCell v .b g) s).slotMarks = { s.slotMarks with sampled := some n } := by
  cases o <;> simp only [tail, takeFrameCell_slotMarks, lineSample_slotMarks]

/-! ### The works mark the slot -/

theorem Bku.slotWork_lastWork (n : FrameNo) (mask : Nat) (w0 w1 : Option PlayerWork) (lanes : Table Group 8) (b : Bku) :
    (b.slotWork n mask w0 w1 lanes).unit.lastWork = some n := by
  unfold Bku.slotWork
  extract_lets after ended unit marked first second
  have firstMark : first.unit.lastWork = some n := by
    unfold first
    split
    · exact marked.finish_lastWork .bp0
    · rfl
  have secondMark : second.unit.lastWork = some n := by
    unfold second
    split
    · exact (first.finish_lastWork .bp1).trans firstMark
    · exact firstMark
  split
  · exact (Bku.arbiter_lastWork _ _).trans secondMark
  · exact secondMark

/-- The slot of the slot event is open in the window it leaves (R97). -/
theorem slotWorked_open (n : FrameNo) (ord : SlotOrder) (s : State) : n ∈ openSlots (slotWorked n ord s).ucb.window := by
  obtain ⟨w, -, view⟩ := works_windowView ord.works (s.slotInput n ord) (openSlot n ord s).1
  have window : (slotWorked n ord s).ucb.window = windowAfter n w := congrArg Prod.snd view
  rw [window, openSlots_windowAfter]
  exact List.mem_append_right _ (List.mem_singleton_self n)

/-! ### The frames completed -/

/-- The notice that the frame of a settled port takes. -/
def Agent.sent (m : Agent) (settled : Option TrunkId) : Option SentNotice :=
  match settled, m.queue with
  | some _, e :: _ => some ⟨e, m.lost⟩
  | _, _ => none

theorem Agent.takeNotice_eq (m : Agent) (settled : Option TrunkId) : m.takeNotice settled =
    (if (m.sent settled).isSome then { m with queue := m.queue.tail, lost := false } else m, m.sent settled) := by
  unfold Agent.takeNotice Agent.sent
  cases settled with
  | none => rfl
  | some p => cases queue : m.queue <;> rfl

theorem Agent.takeNotice_response (m : Agent) (settled : Option TrunkId) (p : TrunkId) :
    (m.takeNotice settled).1.response p = m.response p := by
  cases p with
  | a => exact m.takeNotice_respA settled
  | b => exact m.takeNotice_respB settled

/-- The frame of slot `n` for a port, the notice taken (R124, R198, R201). -/
def State.slotFrame (u : State) (n : FrameNo) (p : TrunkId) : UplinkFrame where
  hfn := n
  summary := ⟨u.fps.ref, u.tif.settled, max u.ict.latched u.ict.commanded, (u.mga.takeNotice u.tif.settled).1.queue.length,
    (u.mga.takeNotice u.tif.settled).1.lost⟩
  control := u.mga.response p
  notice := if u.tif.settled = some p then u.mga.sent u.tif.settled else none
  lanes := u.ucb.uplink

theorem completeFrames_eq (n : FrameNo) (u : State) : completeFrames n u =
    { u with
      tif := { u.tif with outA := some (u.slotFrame n .a), outB := some (u.slotFrame n .b) }
      mga := (u.mga.takeNotice u.tif.settled).1 } := by
  have frame : ∀ p, uplinkFrame n (u.mga.takeNotice u.tif.settled).2 { u with mga := (u.mga.takeNotice u.tif.settled).1 } p =
      u.slotFrame n p := by
    intro p
    have taken := congrArg Prod.snd (u.mga.takeNotice_eq u.tif.settled)
    have control := u.mga.takeNotice_response u.tif.settled p
    simp only [uplinkFrame, control, taken]
    rfl
  unfold completeFrames
  dsimp only
  rw [frame, frame]

end Sys2Proof.Machine
end

section
/-! The slot event whole (R125): its frames, the marks it leaves, and the hub before its tail. -/
namespace Sys2Proof.Machine

section Event
variable (n : FrameNo) (line : Bool) (ord : SlotOrder) (s : State)

/-- The hub at the end of a slot's tail, before its frames are completed. -/
def slotTailed : State :=
  tail ord.tail (lineSample n line) (takeFrameCell (earlyView ord s) .a s.tif.a.consume.2)
    (takeFrameCell (earlyView ord s) .b s.tif.b.consume.2) (slotWorked n ord s)

theorem slotEvent_eq : slotEvent n line ord s = completeFrames n (slotTailed n line ord s) := rfl

/-- SLOT is the slot event of the next HFN where no restart is pending (R203). -/
theorem exec_slot (awake : s.held = false) (running : s.mga.restart = none) :
    exec (.slot line ord) s = .next (completeFrames s.fps.next (slotTailed s.fps.next line ord s)) := by
  refine (eventCommand_awake awake (slot line ord)).trans (congrArg _ ?_)
  rw [slot, running]
  exact slotEvent_eq _ line ord s

/-- With a restart pending SLOT is the restart taking effect (R203). -/
theorem exec_slot_of_restart (pending : s.mga.restart ≠ none) : exec (.slot line ord) s = exec .restartTakesEffect s := by
  obtain ⟨f, form⟩ := Option.ne_none_iff_exists'.1 pending
  have same : slot line ord s = restartTakesEffect s := by rw [slot, restartTakesEffect, form]
  exact congrArg (fun t => Host.Outcome.next (if s.held then s else t)) same

theorem slotWorked_tif : (slotWorked n ord s).tif = { s.tif.consumed.settle.1 with settled := s.tif.consumed.settle.1.active } := by
  rw [slotWorked_eq]
  exact consumption_tif ord.expiryFirst { s with mga := { s.mga with respA := none, respB := none } }

theorem slotWorked_fps : (slotWorked n ord s).fps =
    { (consumption ord.expiryFirst { s with mga := { s.mga with respA := none, respB := none } }).1.fps with hfn := some n } := by
  rw [slotWorked_eq]
  rfl

/-- The marks that stand at the end of the tail. -/
theorem slotTailed_marks : let t := slotTailed n line ord s
    t.tif.settled = s.tif.consumed.settle.1.active ∧ t.fps.hfn = some n ∧ n ∈ openSlots t.ucb.window ∧ t.ict.sampleHfn = some n ∧
    t.bku.lastWork = some n ∧ t.pins = s.pins ∧ t.pending = s.pending := by
  intro t
  have marks : t.slotMarks = { (slotWorked n ord s).slotMarks with sampled := some n } := tail_slotMarks ord.tail n line _ _ _ _
  have slots : openSlots t.ucb.window = openSlots (slotWorked n ord s).ucb.window := congrArg SlotMarks.slots marks
  have worked : (slotWorked n ord s).bku.lastWork = some n := by
    rw [slotWorked_eq]
    exact Bku.slotWork_lastWork n _ _ _ _ s.bkuView
  have kept : (slotWorked n ord s).pins = s.pins ∧ (slotWorked n ord s).pending = s.pending := by
    rw [slotWorked_eq]
    exact ⟨rfl, rfl⟩
  refine ⟨(congrArg SlotMarks.settled marks).trans ?_, (congrArg SlotMarks.hfn marks).trans ?_, slots ▸ slotWorked_open n ord s,
    congrArg SlotMarks.sampled marks, (congrArg SlotMarks.worked marks).trans worked, (congrArg SlotMarks.pins marks).trans kept.1,
    (congrArg SlotMarks.pending marks).trans kept.2⟩
  · exact congrArg TrunkSide.settled (slotWorked_tif n ord s)
  · exact congrArg Pacer.hfn (slotWorked_fps n ord s)

end Event

end Sys2Proof.Machine

namespace Sys2Proof.Proofs
open Sys2Proof Sys2Proof.Machine

/-- Settles O46: no work of the slot reads what another changes, so the hub before the tail is one state in every order of the works but for the
order of their notices; the tail keeps the marks of the slot; cells, frames and the judgement of ports are each read off case by case. -/
theorem slotRaisesTheNextHfn : Obligations.SlotRaisesTheNextHfn := by
  refine ⟨fun s line ord awake => ⟨fun running => ?_, exec_slot_of_restart line ord s⟩, fun seen p cell s => ⟨rfl, ?_⟩,
    fun n u => ?_, missPort_spec⟩
  · intro n ca cb roles act frame expires lanes voice i judged closing v c closed served limited played mixNotices spanNotices raised
    refine ⟨?_, slotWorked n ord s, ?_⟩
    · obtain ⟨settled, hfn, opened, sampled, worked, pins, pending⟩ := slotTailed_marks n line ord s
      let u := slotTailed n line ord s
      refine ⟨_, u.slotFrame n .a, u.slotFrame n .b, (exec_slot line ord s awake running).trans (congrArg _ (completeFrames_eq n u)),
        hfn, rfl, rfl, rfl, rfl, rfl, rfl, rfl, settled, ?_, ?_, fun other => if_neg other, fun other => if_neg other, rfl, rfl, rfl,
        opened, sampled, worked, pins, pending⟩
      · exact (u.mga.takeNotice_respA u.tif.settled).symm
      · exact (u.mga.takeNotice_respB u.tif.settled).symm
    · have worked : slotWorked n ord s = _ := slotWorked_eq n ord s
      have input : i = s.slotInput n ord := rfl
      have limiter : ∀ g, limited g = i.limit g := fun g => (i.limit_eq g).symm
      have mix : mixNotices = i.mixSaid := by
        simp only [mixNotices, limiter]
        exact i.mixSaid_eq.symm
      refine ⟨?_, slotWorked_tif n ord s, congrArg Pacer.hfn (slotWorked_fps n ord s),
        (congrArg Pacer.holdLimit (slotWorked_fps n ord s)).trans (consumption_limits _ _).1,
        (congrArg Pacer.trim (slotWorked_fps n ord s)).trans (consumption_limits _ _).2, fun active => ?_, fun none => ?_, ?_⟩
      · refine (exec_slot line ord s awake running).trans (congrArg (fun t => Host.Outcome.next (completeFrames n t)) ?_)
        unfold slotTailed tail
        cases ord.tail <;> rfl
      · rw [slotWorked_fps]
        exact consumption_active _ _ active
      · rw [slotWorked_fps]
        exact consumption_island _ _ none
      rw [worked]
      refine ⟨rfl, fun g => ?_, rfl, fun p => ⟨Table.get_make _ _, fun silent => ?_, fun g sd serves quiet => ?_⟩, rfl, rfl, ?_,
        rfl, rfl, rfl, rfl, rfl⟩
      · rw [limiter]
        exact Table.get_make _ _
      · exact (Table.get_make _ _).trans (sentOn_of_silent silent)
      · refine ⟨downlinkFrame i g, (Table.get_make _ _).trans (sentOn_of_served serves quiet), rfl, rfl, rfl, fun k => ?_, fun l => ⟨?_, ?_⟩⟩
        · exact (Table.get_make _ _).trans (directiveFor_eq _ _ k)
        · exact Table.get_make _ _
        · rw [downlinkFrame, Table.get_make]
          exact mapEntry_spec s.ctb _
      · refine (congrArg (Agent.raiseAll · _) (openSlot_mga n ord s)).trans ((Agent.raiseAll_append _ _ _).symm.trans (congrArg _ ?_))
        refine congrArg₂ List.append rfl ?_
        rw [← input, ← mix]
        unfold workNotices
        cases ord.works <;> rfl
  · rintro frame rfl
    refine ⟨takeFrameCell_of_empty, takeFrameCell_of_badCheck, fun tag kind => takeFrameCell_of_malformed,
      fun tag r => exec_of_request, fun tag part sel read => ⟨?_, fun tagged => ⟨fun st found => ?_, fun bs found =>
        ⟨fun within => ?_, fun beyond => ?_⟩⟩⟩⟩
    · rintro rfl
      exact (takeFrameCell_of_request read).trans (serve_of_untagged _ _)
    · exact takeFrameCell_of_read read tagged (rdrecOf_of_refused found)
    · exact takeFrameCell_of_read read tagged (rdrecOf_of_record found within)
    · exact takeFrameCell_of_read read tagged (rdrecOf_of_beyond found beyond)
  · intro t sent frame
    have completed : t = _ := completeFrames_eq n u
    have agent : t.mga = (u.mga.takeNotice u.tif.settled).1 := by rw [completed]
    have frames : ∀ p, frame p = u.slotFrame n p := fun p => by simp only [frame, agent]; rfl
    have taken : (u.mga.takeNotice u.tif.settled).1 = if sent.isSome then { u.mga with queue := u.mga.queue.tail, lost := false } else u.mga :=
      congrArg Prod.fst (u.mga.takeNotice_eq u.tif.settled)
    rw [frames, frames, ← taken]
    exact completed

end Sys2Proof.Proofs
end

section
/-! A player as the law of the break-in unit reads it (R139 to R145): its state, the claim of its request, and the ways in which it goes on
with that request. -/
namespace Sys2Proof.Machine

/-- What a request claims for as long as it is held: its tag, its priority and its zones (R135). -/
def AnnRequest.claim (r : AnnRequest) : Nat × Nat × GroupSet := (r.tag, r.priority, r.zones)

/-- The claim of the request on a player. -/
def Player.claim (p : Player) : Option (Nat × Nat × GroupSet) := p.request.map AnnRequest.claim

/-- A player has a request exactly while it is not IDLE, and an intent exactly in FADE_OUT (R139). -/
structure Player.Agrees (p : Player) : Prop where
  filled : p.filled
  intent : p.intent.isSome ↔ p.state = .fadeOut

/-- In FADE_IN, PLAYING and GAP a player's request is not below the announce mask (R145). -/
def Player.Audible (mask : Nat) (p : Player) : Prop := p.running = true → ∀ r, p.request = some r → mask ≤ r.priority

/-- A player that goes on with its request: it stays where it is among IDLE, running and FADE_OUT, or it is sent to FADE_OUT. -/
structure Player.Onward (p q : Player) : Prop where
  claim : q.claim = p.claim
  idle : q.state = .idle ↔ p.state = .idle
  intent : q.intent.isSome ↔ q.state = .fadeOut
  running : q.running = true → p.running = true

theorem Player.running_iff (p : Player) : p.running = true ↔ p.state ≠ .idle ∧ p.state ≠ .fadeOut := by
  unfold Player.running
  cases p.state <;> decide

theorem Player.zones_eq (p : Player) : p.zones = if p.state = .idle then 0 else (p.request.map (·.zones)).getD 0 := by
  obtain ⟨state, request⟩ := p
  cases state <;> cases request <;> rfl

theorem Player.request_eq_none_iff_claim (p : Player) : p.request = none ↔ p.claim = none := Option.map_eq_none_iff.symm

namespace Player.Onward
variable {p q u : Player}

theorem refl (agrees : p.Agrees) : p.Onward p := ⟨rfl, Iff.rfl, agrees.intent, id⟩

theorem trans (first : p.Onward q) (last : q.Onward u) : p.Onward u :=
  ⟨last.claim.trans first.claim, last.idle.trans first.idle, last.intent, first.running ∘ last.running⟩

theorem agrees (on : p.Onward q) (filled : p.filled) : q.Agrees := by
  refine ⟨?_, on.intent⟩
  rw [Player.filled, Player.request_eq_none_iff_claim, on.claim, on.idle, ← Player.request_eq_none_iff_claim]
  exact filled

theorem audible {mask : Nat} (on : p.Onward q) (audible : p.Audible mask) : q.Audible mask := by
  intro running r request
  have claimed : p.claim = some r.claim := on.claim.symm.trans (congrArg (Option.map AnnRequest.claim) request)
  obtain ⟨r', request', same⟩ := Option.map_eq_some_iff.1 claimed
  have priority : r'.priority = r.priority := congrArg (fun x : Nat × Nat × GroupSet => x.2.1) same
  exact priority ▸ audible (on.running running) r' request'

theorem zones (on : p.Onward q) : q.zones = p.zones := by
  have byClaim : ∀ x : Player, (x.request.map (·.zones)).getD 0 = (x.claim.map (·.2.2)).getD 0 := fun x => by
    rw [Player.claim, Option.map_map]; rfl
  simp only [Player.zones_eq, byClaim, on.claim, on.idle]

theorem tags (on : p.Onward q) : q.request.toList.map (·.tag) = p.request.toList.map (·.tag) := by
  have byClaim : ∀ x : Player, x.request.toList.map (·.tag) = (x.claim.map (·.1)).toList := fun x => by
    cases request : x.request <;> simp [Player.claim, AnnRequest.claim, request]
  rw [byClaim, byClaim, on.claim]

/-- A player with stage, intent and claim as they were. -/
theorem of_kept (agrees : p.Agrees) (claim : q.claim = p.claim) (state : q.state = p.state) (intent : q.intent = p.intent) :
    p.Onward q :=
  ⟨claim, by rw [state], by rw [state, intent]; exact agrees.intent, by rw [running_iff, running_iff, state]; exact id⟩

/-- A running player that stays running. -/
theorem of_running (agrees : p.Agrees) (claim : q.claim = p.claim) (before : p.running = true) (after : q.running = true)
    (intent : q.intent = p.intent) : p.Onward q := by
  rw [running_iff] at before after
  refine ⟨claim, iff_of_false after.1 before.1, ?_, fun _ => p.running_iff.2 before⟩
  rw [intent, agrees.intent]
  exact iff_of_false before.2 after.2

/-- A player that is not IDLE sent to FADE_OUT (R140). -/
theorem of_fadeOut (claim : q.claim = p.claim) (busy : p.state ≠ .idle) (state : q.state = .fadeOut) (intent : q.intent.isSome) :
    p.Onward q :=
  ⟨claim, iff_of_false (by rw [state]; decide) busy, iff_of_true intent state, by rw [running_iff, state]; exact fun run => absurd rfl run.2⟩

end Player.Onward

theorem Player.yieldTo_onward {p : Player} (agrees : p.Agrees) (r : AnnRequest) : p.Onward (p.yieldTo r) := by
  unfold Player.yieldTo
  split
  · split
    · next yields =>
      simp only [Bool.and_eq_true, Player.running_iff] at yields
      exact .of_fadeOut rfl yields.1.1.1 rfl rfl
    · exact .refl agrees
  · exact .refl agrees

theorem Player.cancelled_onward {p : Player} (agrees : p.Agrees) (tag : Nat) : p.Onward (p.cancelled tag) := by
  unfold Player.cancelled
  split
  · next named =>
    refine .of_fadeOut rfl (fun idle => ?_) rfl rfl
    rw [agrees.filled.2 idle] at named
    cases named
  · exact .refl agrees

theorem Player.gapEnded_onward {p : Player} (agrees : p.Agrees) (gap : p.state = .gap) : p.Onward p.gapEnded := by
  refine .of_running agrees rfl (p.running_iff.2 (by rw [gap]; decide)) (p.gapEnded.running_iff.2 ?_) rfl
  unfold Player.gapEnded
  dsimp only
  split <;> decide

/-- A player made IDLE, its request gone. -/
theorem Player.agrees_of_idle {p : Player} (request : p.request = none) (idle : p.state = .idle) (intent : p.intent = none) : p.Agrees :=
  ⟨iff_of_true request idle, by rw [intent, idle]; decide⟩

theorem Player.audible_of_not_running {p : Player} (mask : Nat) (quiet : p.running = false) : p.Audible mask :=
  fun running => absurd (quiet.symm.trans running) (by decide)

end Sys2Proof.Machine
end

section
/-! The held requests of the break-in unit (R135, R137, R138, R142): where a request joins the queue, and what a finished player and a cancelled
request leave held. -/
namespace Sys2Proof.Machine

/-! ### Joining the queue (R137) -/

/-- The queue in falling priority. -/
def Falling (q : List AnnRequest) : Prop := q.Pairwise fun a b => b.priority ≤ a.priority

theorem joined_perm (ahead : AnnRequest → Bool) (q : List AnnRequest) (r : AnnRequest) :
    (q.takeWhile ahead ++ r :: q.dropWhile ahead).Perm (r :: q) := by
  refine List.perm_middle.trans (.of_eq ?_)
  rw [List.takeWhile_append_dropWhile]

theorem joinBehind_perm (q : List AnnRequest) (r : AnnRequest) : (joinBehind q r).Perm (r :: q) := joined_perm _ q r

theorem joinAhead_perm (q : List AnnRequest) (r : AnnRequest) : (joinAhead q r).Perm (r :: q) := joined_perm _ q r

theorem Falling.joined {q : List AnnRequest} (falling : Falling q) {ahead : AnnRequest → Bool} {r : AnnRequest}
    (before : ∀ x, ahead x = true → r.priority ≤ x.priority) (behind : ∀ x, ahead x = false → x.priority ≤ r.priority) :
    Falling (q.takeWhile ahead ++ r :: q.dropWhile ahead) := by
  induction q with
  | nil => exact List.pairwise_singleton _ _
  | cons x q ih =>
    obtain ⟨top, rest⟩ := List.pairwise_cons.1 falling
    cases first : ahead x with
    | true =>
      rw [List.takeWhile_cons_of_pos first, List.dropWhile_cons_of_pos first]
      refine List.pairwise_cons.2 ⟨fun y hy => ?_, ih rest⟩
      obtain rfl | old := List.mem_cons.1 ((joined_perm ahead q r).mem_iff.1 hy)
      · exact before x first
      · exact top y old
    | false =>
      have passed : ¬ahead x = true := Bool.eq_false_iff.1 first
      rw [List.takeWhile_cons_of_neg passed, List.dropWhile_cons_of_neg passed]
      refine List.pairwise_cons.2 ⟨fun y hy => ?_, falling⟩
      obtain rfl | old := List.mem_cons.1 hy
      · exact behind _ first
      · exact (top y old).trans (behind x first)

theorem Falling.joinBehind {q : List AnnRequest} (falling : Falling q) (r : AnnRequest) : Falling (joinBehind q r) :=
  falling.joined (fun _ ahead => of_decide_eq_true ahead) (fun _ below => (not_le.1 (of_decide_eq_false below)).le)

theorem Falling.joinAhead {q : List AnnRequest} (falling : Falling q) (r : AnnRequest) : Falling (joinAhead q r) :=
  falling.joined (fun _ ahead => (of_decide_eq_true ahead).le) (fun _ below => not_lt.1 (of_decide_eq_false below))

/-! ### What is held (R135) -/

/-- The other player. -/
def otherPlayer : PlayerId → PlayerId
  | .bp0 => .bp1
  | .bp1 => .bp0

/-- The requests held beside that of one player. -/
def BreakIn.heldBeside (b : BreakIn) (id : PlayerId) : List AnnRequest := b.queue ++ (b.player (otherPlayer id)).request.toList

theorem BreakIn.held_perm (b : BreakIn) (id : PlayerId) : b.held.Perm ((b.player id).request.toList ++ b.heldBeside id) := by
  cases id with
  | bp0 =>
    rw [BreakIn.held, List.append_assoc]
    exact List.perm_append_comm_assoc _ _ _
  | bp1 => exact List.perm_append_comm

@[simp] theorem BreakIn.player_setPlayer_other (b : BreakIn) (id : PlayerId) (x : Player) :
    (b.setPlayer id x).player (otherPlayer id) = b.player (otherPlayer id) := by cases id <;> rfl

@[simp] theorem BreakIn.heldBeside_setPlayer (b : BreakIn) (id : PlayerId) (x : Player) :
    (b.setPlayer id x).heldBeside id = b.heldBeside id := by cases id <;> rfl

theorem BreakIn.held_setPlayer (b : BreakIn) (id : PlayerId) (x : Player) :
    (b.setPlayer id x).held.Perm (x.request.toList ++ b.heldBeside id) := by
  have split := (b.setPlayer id x).held_perm id
  rwa [BreakIn.player_setPlayer, BreakIn.heldBeside_setPlayer] at split

theorem BreakIn.held_eq_onPlayers (b : BreakIn) : b.held = b.queue ++ b.onPlayers := List.append_assoc _ _ _

/-- A player replaced by one without a request: its request stops being held. -/
theorem BreakIn.held_perm_of_freed {b : BreakIn} {id : PlayerId} {x : Player} {r : AnnRequest} (request : (b.player id).request = some r)
    (freed : x.request = none) : b.held.Perm (r :: (b.setPlayer id x).held) := by
  have before := b.held_perm id
  have after := b.held_setPlayer id x
  rw [request] at before
  rw [freed] at after
  exact before.trans (.cons r after.symm)

theorem BreakIn.held_joined {u : BreakIn} {q : List AnnRequest} {r : AnnRequest} (joins : q.Perm (r :: u.queue)) :
    ({ u with queue := q } : BreakIn).held.Perm (r :: u.held) := by
  simp only [BreakIn.held_eq_onPlayers]
  exact joins.append_right _

/-! ### A fade-out carried out (R142) -/

section Finish
variable {b : Bku} {id : PlayerId} {r : AnnRequest}

/-- The unit with a player made IDLE. -/
def Bku.idled (b : Bku) (id : PlayerId) : BreakIn :=
  b.unit.setPlayer id { b.unit.player id with state := .idle, request := none, intent := none }

theorem Bku.finish_of_end {o : AnnOutcome} (request : (b.unit.player id).request = some r)
    (intent : (b.unit.player id).intent = some (.finish o)) :
    b.finish id = ⟨b.idled id, b.out ++ [.announceEnd r.tag o r.playsDone]⟩ := by
  simp only [finish, request, intent]
  rfl

theorem Bku.finish_of_requeue (request : (b.unit.player id).request = some r) (intent : (b.unit.player id).intent = some .requeue) :
    b.finish id = ⟨{ b.idled id with queue := joinAhead (b.idled id).queue r }, b.out ++ [.announceRequeued r.tag id r.playsDone]⟩ := by
  simp only [finish, request, intent]
  rfl

theorem Bku.idled_held : (b.idled id).held.Perm (b.unit.heldBeside id) := b.unit.held_setPlayer id _

/-- What finishing a player can do: its request stops being held, or it joins the queue ahead of its priority, or there was none. -/
theorem Bku.finish_cases (b : Bku) (id : PlayerId) :
    (b.finish id).unit = b.idled id ∨
    ∃ r, (b.unit.player id).request = some r ∧ (b.finish id).unit = { b.idled id with queue := joinAhead (b.idled id).queue r } := by
  unfold Bku.finish
  dsimp only
  split
  · exact .inl rfl
  · next r request _ => exact .inr ⟨r, request, rfl⟩
  · exact .inl rfl

end Finish

end Sys2Proof.Machine
end

section
/-! The law of the break-in unit on its own (R135, R137, R139, R143, R145), and that each operation of the unit keeps it. -/
namespace Sys2Proof.Machine

/-- At most 16 requests are held, no two with one tag (R135). -/
def TagsOk (ts : List Nat) : Prop := ts.length ≤ 16 ∧ ts.Nodup

/-- The players' part of the law. -/
structure BreakIn.PlayersOk (mask : Nat) (b : BreakIn) : Prop where
  agrees : ∀ id, (b.player id).Agrees
  audible : ∀ id, (b.player id).Audible mask
  apart : b.bp0.zones &&& b.bp1.zones = 0

/-- The law under an announce mask. -/
structure BreakIn.Ok (mask : Nat) (b : BreakIn) : Prop where
  tags : TagsOk (b.held.map (·.tag))
  falling : Falling b.queue
  players : b.PlayersOk mask

/-- The unit has nothing to do: nothing is queued and both players are IDLE. -/
structure BreakIn.AtRest (b : BreakIn) : Prop where
  queue : b.queue = []
  bp0 : b.bp0.state = .idle
  bp1 : b.bp1.state = .idle

theorem TagsOk.sublist {ts us : List Nat} (ok : TagsOk ts) (sub : us.Sublist ts) : TagsOk us :=
  ⟨sub.length_le.trans ok.1, ok.2.sublist sub⟩

theorem TagsOk.perm {ts us : List Nat} (ok : TagsOk ts) (same : us.Perm ts) : TagsOk us :=
  ⟨same.length_eq.trans_le ok.1, same.nodup_iff.2 ok.2⟩

variable {mask : Nat} {b : BreakIn}

theorem BreakIn.PlayersOk.filled (ok : b.PlayersOk mask) (id : PlayerId) : (b.player id).filled := (ok.agrees id).filled

/-- Players that go on with their requests keep the law, under any mask that they stay audible under. -/
theorem BreakIn.PlayersOk.onward {b' : BreakIn} {mask' : Nat} (ok : b.PlayersOk mask) (on : ∀ id, (b.player id).Onward (b'.player id))
    (audible : ∀ id, (b'.player id).Audible mask') : b'.PlayersOk mask' where
  agrees id := (on id).agrees (ok.filled id)
  audible := audible
  apart := by
    have bp0 := (on .bp0).zones
    have bp1 := (on .bp1).zones
    simp only [BreakIn.player] at bp0 bp1
    rw [bp0, bp1]
    exact ok.apart

theorem BreakIn.Ok.onward {b' : BreakIn} {mask' : Nat} (ok : b.Ok mask) (queue : b'.queue = b.queue)
    (on : ∀ id, (b.player id).Onward (b'.player id)) (audible : ∀ id, (b'.player id).Audible mask') : b'.Ok mask' where
  tags := by
    have bp0 := (on .bp0).tags
    have bp1 := (on .bp1).tags
    simp only [BreakIn.player] at bp0 bp1
    have same : b'.held.map (·.tag) = b.held.map (·.tag) := by simp only [BreakIn.held, List.map_append, queue, bp0, bp1]
    exact same ▸ ok.tags
  falling := queue ▸ ok.falling
  players := ok.players.onward on audible

/-- One player goes on. -/
theorem BreakIn.Ok.setPlayer (ok : b.Ok mask) {id : PlayerId} {x : Player} (on : (b.player id).Onward x) : (b.setPlayer id x).Ok mask := by
  have each : ∀ p, (b.player p).Onward ((b.setPlayer id x).player p) := by
    intro p
    obtain rfl | rfl : p = id ∨ p = otherPlayer id := by cases p <;> cases id <;> decide
    · rw [BreakIn.player_setPlayer]; exact on
    · rw [BreakIn.player_setPlayer_other]; exact .refl (ok.players.agrees _)
  exact ok.onward (b.setPlayer_queue id x) each fun p => (each p).audible (ok.players.audible p)

theorem BreakIn.Ok.of_atRest (rest : b.AtRest) (agrees : ∀ id, (b.player id).Agrees) (mask : Nat) : b.Ok mask := by
  have bp0 : b.bp0.request = none := (agrees .bp0).filled.2 rest.bp0
  have bp1 : b.bp1.request = none := (agrees .bp1).filled.2 rest.bp1
  have held : b.held = [] := by rw [BreakIn.held, rest.queue, bp0, bp1]; rfl
  refine ⟨?_, ?_, agrees, fun id => Player.audible_of_not_running mask ?_, ?_⟩
  · rw [held]; exact ⟨Nat.zero_le _, List.nodup_nil⟩
  · rw [rest.queue]; exact .nil
  · cases id with
    | bp0 => simp only [BreakIn.player, Player.running, rest.bp0]; decide
    | bp1 => simp only [BreakIn.player, Player.running, rest.bp1]; decide
  · rw [Player.zones_eq, rest.bp0, if_pos rfl]; exact BitVec.zero_and

/-! ### The arbiter (R143, R144) -/

/-- What is clear of the blocked zones is clear of both players' zones. -/
def BreakIn.Within (blocked : GroupSet) (b : BreakIn) : Prop :=
  ∀ (z : GroupSet) (id : PlayerId), z &&& blocked = 0 → z &&& (b.player id).zones = 0

theorem clear_or {z x y : GroupSet} : z &&& (x ||| y) = 0 ↔ z &&& x = 0 ∧ z &&& y = 0 := by
  rw [BitVec.and_or_distrib_left]
  exact BitVec.or_eq_zero_iff

theorem BreakIn.within_zones (b : BreakIn) : b.Within (b.bp0.zones ||| b.bp1.zones) := by
  intro z id clear
  cases id with
  | bp0 => exact (clear_or.1 clear).1
  | bp1 => exact (clear_or.1 clear).2

/-- The player as a request is started on it (R141). -/
def Player.started (p : Player) (r : AnnRequest) : Player :=
  { p with state := .fadeIn, request := some r, intent := none, fade := 0, phase := 0, progress := 0, gapLeft := 0, liveMiss := 0 }

/-- A request not below the mask is started on a player, in zones clear of the other's. -/
theorem BreakIn.PlayersOk.started (ok : b.PlayersOk mask) (id : PlayerId) {r : AnnRequest} (high : mask ≤ r.priority)
    (clear : r.zones &&& (b.player (otherPlayer id)).zones = 0) : (b.setPlayer id ((b.player id).started r)).PlayersOk mask := by
  have agrees : ((b.player id).started r).Agrees := ⟨by simp [Player.started, Player.filled], by simp [Player.started]⟩
  have audible : ((b.player id).started r).Audible mask := fun _ q request => by
    obtain rfl : r = q := Option.some.inj request
    exact high
  cases id with
  | bp0 =>
    exact ⟨fun | .bp0 => agrees | .bp1 => ok.agrees .bp1, fun | .bp0 => audible | .bp1 => ok.audible .bp1, clear⟩
  | bp1 =>
    refine ⟨fun | .bp0 => ok.agrees .bp0 | .bp1 => agrees, fun | .bp0 => ok.audible .bp0 | .bp1 => audible, ?_⟩
    rw [BitVec.and_comm]
    exact clear

theorem BreakIn.Within.started {blocked : GroupSet} (within : b.Within blocked) (id : PlayerId) (r : AnnRequest) :
    (b.setPlayer id ((b.player id).started r)).Within (blocked ||| r.zones) := by
  intro z p clear
  obtain ⟨before, own⟩ := clear_or.1 clear
  obtain rfl | rfl : p = id ∨ p = otherPlayer id := by cases p <;> cases id <;> decide
  · rw [BreakIn.player_setPlayer]; exact own
  · rw [BreakIn.player_setPlayer_other]; exact within z _ before

/-- The players after those that a request meets have yielded to it. -/
def BreakIn.yielded (b : BreakIn) (r : AnnRequest) : BreakIn := { b with bp0 := b.bp0.yieldTo r, bp1 := b.bp1.yieldTo r }

theorem BreakIn.PlayersOk.yielded_onward (ok : b.PlayersOk mask) (r : AnnRequest) (id : PlayerId) :
    (b.player id).Onward ((b.yielded r).player id) := by
  have on := (b.player id).yieldTo_onward (ok.agrees id) r
  cases id <;> exact on

theorem BreakIn.idlePlayer_of_clear {r : AnnRequest} {blocked : GroupSet} {id : PlayerId}
    (found : (if r.zones &&& blocked = 0 then b.idlePlayer else none) = some id) : r.zones &&& blocked = 0 ∧ b.idlePlayer = some id := by
  split at found
  · next clear => exact ⟨clear, found⟩
  · cases found

/-- The walk over a queue keeps the players' part of the law, and what it leaves queued stands in the order in which it stood. -/
theorem Bku.walk_ok (mask : Nat) (rs : List AnnRequest) : ∀ (blocked : GroupSet) (b : Bku), b.unit.PlayersOk mask → b.unit.Within blocked →
    (Bku.walk mask rs blocked b).2.unit.PlayersOk mask ∧ (Bku.walk mask rs blocked b).1.Sublist rs := by
  induction rs with
  | nil => exact fun _ _ ok _ => ⟨ok, .refl _⟩
  | cons r rs ih =>
    intro blocked b ok within
    unfold Bku.walk
    split
    · obtain ⟨players, sub⟩ := ih blocked b ok within
      exact ⟨players, sub.cons_cons r⟩
    · next reached =>
      split
      · next id found =>
        have clear := within r.zones (otherPlayer id) (BreakIn.idlePlayer_of_clear found).1
        obtain ⟨players, sub⟩ := ih (blocked ||| r.zones) (b.start id r) (ok.started id (not_lt.1 reached) clear) (within.started id r)
        exact ⟨players, sub.cons r⟩
      · have on := ok.yielded_onward r
        have after : (b.unit.yielded r).Within (blocked ||| r.zones) := fun z id clear => by
          rw [(on id).zones]; exact within z id (clear_or.1 clear).1
        obtain ⟨players, sub⟩ := ih (blocked ||| r.zones) ⟨b.unit.yielded r, b.out⟩
          (ok.onward on fun id => (on id).audible (ok.audible id)) after
        exact ⟨players, sub.cons_cons r⟩

/-- One run of the player arbiter keeps the law. -/
theorem Bku.arbiter_ok {b : Bku} (ok : b.unit.Ok mask) : (b.arbiter mask).unit.Ok mask := by
  obtain ⟨players, sub⟩ := Bku.walk_ok mask b.unit.queue _ b ok.players b.unit.within_zones
  obtain ⟨held, -⟩ := Bku.arbiter_keeps mask b ok.players.filled
  refine ⟨ok.tags.perm (held.map _), ok.falling.sublist sub, fun id => ?_, fun id => ?_, players.apart⟩
  · have agrees := players.agrees id
    cases id <;> exact agrees
  · have audible := players.audible id
    cases id <;> exact audible

/-! ### A change of the announce mask (R145) -/

/-- A running player whose request lies below a mask fades out with REQUEUE. -/
def Player.droppedBelow (mask : Nat) (p : Player) : Player :=
  match p.request with
  | some q => if p.running && q.priority < mask then p.fadeOutWith .requeue else p
  | none => p

theorem Player.droppedBelow_onward {p : Player} (agrees : p.Agrees) (mask : Nat) : p.Onward (p.droppedBelow mask) := by
  unfold Player.droppedBelow
  split
  · split
    · next below =>
      simp only [Bool.and_eq_true, Player.running_iff] at below
      exact .of_fadeOut rfl below.1.1 rfl rfl
    · exact .refl agrees
  · exact .refl agrees

theorem Player.droppedBelow_audible (p : Player) (mask : Nat) : (p.droppedBelow mask).Audible mask := by
  unfold Player.droppedBelow
  split
  · next q request =>
    split
    · exact Player.audible_of_not_running mask rfl
    · next stays =>
      intro running r named
      obtain rfl : q = r := Option.some.inj (request.symm.trans named)
      by_contra low
      exact stays (by rw [running, Bool.true_and]; exact decide_eq_true (not_le.1 low))
  · next empty => exact fun _ r named => nomatch empty.symm.trans named

theorem Bku.maskChange_eq (old new : Nat) (b : Bku) : b.maskChange old new = if old = new then b else
    Bku.arbiter new { b with unit := { b.unit with bp0 := b.unit.bp0.droppedBelow new, bp1 := b.unit.bp1.droppedBelow new } } := rfl

/-- The mask changed, the law holds under the new one. -/
theorem Bku.maskChange_ok {b : Bku} {old : Nat} (ok : b.unit.Ok old) (new : Nat) : (b.maskChange old new).unit.Ok new := by
  rw [Bku.maskChange_eq]
  split
  · next same => exact same ▸ ok
  · refine Bku.arbiter_ok (ok.onward rfl (fun id => ?_) fun id => ?_)
    · have on := Player.droppedBelow_onward (ok.players.agrees id) new
      cases id <;> exact on
    · have audible := (b.unit.player id).droppedBelow_audible new
      cases id <;> exact audible

/-! ### A player finished, a request queued, a request cancelled -/

theorem Bku.idled_playersOk {b : Bku} (ok : b.unit.PlayersOk mask) (id : PlayerId) : (b.idled id).PlayersOk mask := by
  have agrees : ({ b.unit.player id with state := .idle, request := none, intent := none } : Player).Agrees :=
    Player.agrees_of_idle rfl rfl rfl
  have audible : ({ b.unit.player id with state := .idle, request := none, intent := none } : Player).Audible mask :=
    Player.audible_of_not_running mask rfl
  cases id with
  | bp0 => exact ⟨fun | .bp0 => agrees | .bp1 => ok.agrees .bp1, fun | .bp0 => audible | .bp1 => ok.audible .bp1, BitVec.zero_and⟩
  | bp1 => exact ⟨fun | .bp0 => ok.agrees .bp0 | .bp1 => agrees, fun | .bp0 => ok.audible .bp0 | .bp1 => audible, BitVec.and_zero⟩

theorem Bku.finish_ok {b : Bku} (ok : b.unit.Ok mask) (id : PlayerId) : (b.finish id).unit.Ok mask := by
  have players := b.idled_playersOk ok.players id
  have queue : (b.idled id).queue = b.unit.queue := b.unit.setPlayer_queue id _
  obtain ended | ⟨r, request, requeued⟩ := b.finish_cases id
  · rw [ended]
    have beside : (b.unit.heldBeside id).Sublist ((b.unit.player id).request.toList ++ b.unit.heldBeside id) := List.sublist_append_right _ _
    have before := ok.tags.perm ((b.unit.held_perm id).symm.map _)
    exact ⟨(before.sublist (beside.map _)).perm (Bku.idled_held.map _), queue ▸ ok.falling, players⟩
  · rw [requeued]
    have held := (BreakIn.held_joined (joinAhead_perm (b.idled id).queue r)).trans (BreakIn.held_perm_of_freed request rfl).symm
    exact ⟨ok.tags.perm (held.map _), (queue ▸ ok.falling : Falling (b.idled id).queue).joinAhead r, players.agrees, players.audible,
      players.apart⟩

/-- A request of a tag not held joins where there is room. -/
theorem BreakIn.Ok.joinBehind (ok : b.Ok mask) {r : AnnRequest} (fresh : ∀ q ∈ b.held, q.tag ≠ r.tag) (room : b.held.length < 16) :
    ({ b with queue := joinBehind b.queue r } : BreakIn).Ok mask := by
  have held := BreakIn.held_joined (joinBehind_perm b.queue r)
  have one : TagsOk ((r :: b.held).map (·.tag)) := by
    refine ⟨by simpa using room, ?_⟩
    rw [List.map_cons, List.nodup_cons]
    refine ⟨fun taken => ?_, ok.tags.2⟩
    obtain ⟨q, hq, same⟩ := List.mem_map.1 taken
    exact fresh q hq same
  exact ⟨one.perm (held.map _), ok.falling.joinBehind r, ok.players.agrees, ok.players.audible, ok.players.apart⟩

theorem Bku.cancel_ok {b : Bku} (ok : b.unit.Ok mask) (tag : Nat) : (b.cancel tag).unit.Ok mask := by
  unfold Bku.cancel
  split
  · have sub : (b.unit.queue.filter (·.tag != tag) ++ b.unit.onPlayers).Sublist (b.unit.queue ++ b.unit.onPlayers) :=
      List.filter_sublist.append (.refl _)
    refine ⟨ok.tags.sublist (.map _ ?_), ok.falling.sublist List.filter_sublist, ok.players.agrees, ok.players.audible, ok.players.apart⟩
    rw [BreakIn.held_eq_onPlayers, BreakIn.held_eq_onPlayers]
    exact sub
  · have on : ∀ id, (b.unit.player id).Onward
        (({ b.unit with bp0 := b.unit.bp0.cancelled tag, bp1 := b.unit.bp1.cancelled tag } : BreakIn).player id) := fun id => by
      have on := Player.cancelled_onward (ok.players.agrees id) tag
      cases id <;> exact on
    exact ok.onward rfl on fun id => (on id).audible (ok.players.audible id)

end Sys2Proof.Machine
end

section
/-! The work of a player in a slot, step by step, and the work of the unit (R142, R146 to R152). -/
namespace Sys2Proof.Machine

/-! ### The steps of a player -/

section Player
variable (st : Store) (prm : VoxParams) (speech : Option (BitVec 16)) (p : Player)

/-- The audio step of a player whose fade step is done, with the gain of its level and the length of its message (R148, R149). -/
def Player.sound (p : Player) : Audio × Nat × Nat :=
  match p.request with
  | none => (⟨p, 0, false⟩, 0, 0)
  | some r => match r.message with
    | .live => (if p.state = .gap then ⟨p, 0, false⟩ else p.liveAudio speech, prm.liveGain, 0)
    | .stored m => match st.messages.get m with
      | some e => (p.storedAudio st e, e.gain, e.length)
      | none => (⟨p, 0, false⟩, 0, 0)

/-- The player after the repetition step, given the length of its message (R150). -/
def Audio.repeated (x : Audio) (length : Nat) : Player :=
  match x.player.state, x.player.request with
  | .gap, _ => x.player.gapStep
  | .fadeOut, _ => x.player
  | _, some r => if x.took ∧ x.player.progress = length then x.player.playEnded r else x.player
  | _, none => x.player

theorem Player.work_eq : p.work st prm speech =
    let f := p.fadeStep prm.fadeStep
    let x := f.sound st prm speech
    let a := levelValue x.1.value x.2.1
    { player := { x.1.repeated x.2.2 with phase := phaseAt f.phase a prm.deviation 23 }
      block := synthBlock f.phase a prm
      fade := f.fade
      ended := f.state = .fadeOut ∧ f.fade = 0 } := rfl

/-! ### Each step goes on with the request -/

variable {p}

theorem Player.fadeStep_onward (agrees : p.Agrees) (step : Nat) : p.Onward (p.fadeStep step) := by
  unfold Player.fadeStep
  split
  · next fadeIn =>
    refine .of_running agrees rfl (p.running_iff.2 (by rw [fadeIn]; decide)) (Player.running_iff _ |>.2 ?_) rfl
    dsimp only
    split <;> decide
  · exact .of_kept agrees rfl rfl rfl
  · exact .refl agrees

theorem Player.liveAudio_onward (agrees : p.Agrees) : p.Onward (p.liveAudio speech).player := by
  unfold Player.liveAudio
  split
  · exact .of_kept agrees rfl rfl rfl
  · split
    · next heard =>
      have busy : p.state ≠ .idle := by obtain fadeIn | playing := heard <;> simp [*]
      dsimp only
      split
      · exact .of_fadeOut rfl busy rfl rfl
      · exact .of_kept agrees rfl rfl rfl
    · exact .refl agrees

theorem Player.storedAudio_onward (agrees : p.Agrees) (e : Message) : p.Onward (p.storedAudio st e).player := by
  unfold Player.storedAudio
  split
  · exact .of_kept agrees rfl rfl rfl
  · exact .refl agrees

theorem Player.sound_onward (agrees : p.Agrees) : p.Onward (p.sound st prm speech).1.player := by
  unfold Player.sound
  split
  · exact .refl agrees
  · split
    · dsimp only
      split
      · exact .refl agrees
      · exact Player.liveAudio_onward speech agrees
    · split
      · exact Player.storedAudio_onward st agrees _
      · exact .refl agrees

theorem Player.gapStep_onward (agrees : p.Agrees) (gap : p.state = .gap) : p.Onward p.gapStep := by
  unfold Player.gapStep
  split
  · exact Player.gapEnded_onward agrees gap
  · exact .of_kept agrees rfl rfl rfl

theorem Player.playEnded_onward (agrees : p.Agrees) {r : AnnRequest} (request : p.request = some r) (running : p.running = true) :
    p.Onward (p.playEnded r) := by
  have claim : some r.played.claim = p.claim := congrArg (Option.map AnnRequest.claim) request.symm
  unfold Player.playEnded
  dsimp only
  split
  · split
    · exact .of_running agrees claim running rfl rfl
    · exact .of_kept agrees claim rfl rfl
  · exact .of_fadeOut claim (p.running_iff.1 running).1 rfl rfl

theorem Audio.repeated_onward {x : Audio} (agrees : x.player.Agrees) (length : Nat) : x.player.Onward (x.repeated length) := by
  unfold Audio.repeated
  split
  · next gap => exact Player.gapStep_onward agrees gap
  · exact .refl agrees
  · next request _ notOut =>
    split
    · refine Player.playEnded_onward agrees request (x.player.running_iff.2 ⟨fun idle => ?_, notOut⟩)
      rw [agrees.filled.2 idle] at request
      cases request
    · exact .refl agrees
  · exact .refl agrees

theorem Player.work_onward (agrees : p.Agrees) : p.Onward (p.work st prm speech).player := by
  have faded := Player.fadeStep_onward agrees prm.fadeStep
  have sounded := Player.sound_onward st prm speech (faded.agrees agrees.filled)
  have agreed := sounded.agrees (faded.agrees agrees.filled).filled
  have repeated := Audio.repeated_onward agreed ((p.fadeStep prm.fadeStep).sound st prm speech).2.2
  rw [Player.work_eq]
  exact ((faded.trans sounded).trans repeated).trans (.of_kept (repeated.agrees agreed.filled) rfl rfl rfl)

end Player

/-! ### The work of the unit (R146) -/

section Unit
variable (n : FrameNo) (mask : Nat) (st : Store) (prm : VoxParams) (speech : Option (BitVec 16)) (lanes : Table Group 8)

/-- A player after its work in the slot, with the lanes it covers. -/
def BreakIn.playerWorked (b : BreakIn) (id : PlayerId) : Player :=
  if (b.player id).state = .idle then { b.player id with covered := 0 }
  else { ((b.player id).work st prm speech).player with covered := coveredBy lanes id }

/-- The fade-out of a player that is not IDLE reaches 0 in the slot. -/
def BreakIn.endsFade (b : BreakIn) (id : PlayerId) : Bool :=
  (b.player id).state != .idle && ((b.player id).work st prm speech).ended

/-- The unit once both players have worked. -/
def Bku.stepped (b : Bku) : Bku :=
  { b with unit := { b.unit with
      bp0 := b.unit.playerWorked st prm speech lanes .bp0
      bp1 := b.unit.playerWorked st prm speech lanes .bp1
      lastWork := some n } }

/-- IDLE players take no step, intents are carried out where fade-outs have reached 0, BP0 first, and the arbiter runs once if there
was one. -/
theorem Bku.slotWork_eq (b : Bku) :
    let first := if b.unit.endsFade st prm speech .bp0 then (b.stepped n st prm speech lanes).finish .bp0 else b.stepped n st prm speech lanes
    let both := if b.unit.endsFade st prm speech .bp1 then first.finish .bp1 else first
    b.slotWork n mask (b.unit.bp0.slotWork st prm speech) (b.unit.bp1.slotWork st prm speech) lanes =
      if b.unit.endsFade st prm speech .bp0 || b.unit.endsFade st prm speech .bp1 then both.arbiter mask else both := by
  have ends : ∀ id, b.unit.endsFade st prm speech id = (match (b.unit.player id).slotWork st prm speech with
      | some x => x.ended
      | none => false) := by
    intro id
    unfold BreakIn.endsFade Player.slotWork
    by_cases idle : (b.unit.player id).state = .idle
    · simp [idle]
    · simp [idle]
  have worked : ∀ id, b.unit.playerWorked st prm speech lanes id = (match (b.unit.player id).slotWork st prm speech with
      | some x => { x.player with covered := coveredBy lanes id }
      | none => { b.unit.player id with covered := 0 }) := by
    intro id
    unfold BreakIn.playerWorked Player.slotWork
    by_cases idle : (b.unit.player id).state = .idle
    · simp [idle]
    · simp [idle]
  simp only [Bku.stepped, ends, worked]
  rfl

variable {mask} {b : Bku}

theorem BreakIn.playerWorked_onward {b : BreakIn} {id : PlayerId} (agrees : (b.player id).Agrees) :
    (b.player id).Onward (b.playerWorked st prm speech lanes id) := by
  unfold BreakIn.playerWorked
  split
  · exact .of_kept agrees rfl rfl rfl
  · have on := Player.work_onward st prm speech agrees
    exact on.trans (.of_kept (on.agrees agrees.filled) rfl rfl rfl)

/-- The unit's work in a slot keeps the law. -/
theorem Bku.slotWork_ok (ok : b.unit.Ok mask) :
    (b.slotWork n mask (b.unit.bp0.slotWork st prm speech) (b.unit.bp1.slotWork st prm speech) lanes).unit.Ok mask := by
  have on : ∀ id, (b.unit.player id).Onward ((b.stepped n st prm speech lanes).unit.player id) := fun id => by
    have on := BreakIn.playerWorked_onward st prm speech lanes (ok.players.agrees id)
    cases id <;> exact on
  have stepped : (b.stepped n st prm speech lanes).unit.Ok mask := ok.onward rfl on fun id => (on id).audible (ok.players.audible id)
  have finished : ∀ {x : Bku} (c : Bool) (id : PlayerId), x.unit.Ok mask → (if c then x.finish id else x).unit.Ok mask := by
    intro x c id ok
    cases c
    · exact ok
    · exact Bku.finish_ok ok id
  have both := finished (b.unit.endsFade st prm speech .bp1) .bp1 (finished (b.unit.endsFade st prm speech .bp0) .bp0 stepped)
  rw [Bku.slotWork_eq]
  split
  · exact Bku.arbiter_ok both
  · exact both

end Unit

end Sys2Proof.Machine
end

section
/-! The law of held requests and players across a step (R135 to R145, R160, R204): requests, events and the slot event on a hub out of reset, and the
resets. -/
namespace Sys2Proof.Machine

/-! ### What the law reads of the hub -/

/-- The announce mask of the current profile row (R145). -/
def State.mask (s : State) : Nat := s.ict.row.announceMask

/-- The break-in unit, the announce mask, and the holds of a reset. -/
def State.breakInView (s : State) : BreakIn × Nat × Pins := (s.bku, s.mask, s.pins)

/-- The hub is out of reset, and the law holds of its unit. -/
structure State.OnAir (s : State) : Prop where
  awake : s.held = false
  unit : s.bku.Ok s.mask

theorem breakInOk_iff (s : State) : s.breakInOk ↔ s.bku.Ok s.mask ∧ (s.held = true → s.bku.AtRest) := by
  constructor
  · rintro ⟨few, tags, falling, players, apart, rest⟩
    have agrees : ∀ id, (s.bku.player id).Agrees := fun id => by
      obtain ⟨filled, intent, -⟩ := players id
      exact ⟨filled, intent⟩
    have audible : ∀ id, (s.bku.player id).Audible s.mask := fun id => by
      obtain ⟨-, -, audible⟩ := players id
      exact audible
    refine ⟨⟨⟨(List.length_map _).trans_le few, tags⟩, falling, agrees, audible, apart⟩, fun held => ?_⟩
    obtain ⟨queue, bp0, bp1⟩ := rest held
    exact ⟨queue, bp0, bp1⟩
  · rintro ⟨⟨⟨few, tags⟩, falling, players⟩, rest⟩
    exact ⟨(List.length_map _).symm.trans_le few, tags, falling,
      fun id => ⟨(players.agrees id).filled, (players.agrees id).intent, players.audible id⟩, players.apart,
      fun held => ⟨(rest held).queue, (rest held).bp0, (rest held).bp1⟩⟩

namespace State.OnAir
variable {s t : State}

theorem breakInOk (on : s.OnAir) : s.breakInOk :=
  (breakInOk_iff s).2 ⟨on.unit, fun held => absurd (held.symm.trans on.awake) Bool.noConfusion⟩

theorem of_eq (on : s.OnAir) (same : t.breakInView = s.breakInView) : t.OnAir := by
  simp only [State.breakInView, Prod.mk.injEq] at same
  obtain ⟨bku, mask, pins⟩ := same
  exact ⟨by rw [State.held, pins]; exact on.awake, by rw [bku, mask]; exact on.unit⟩

theorem withBku {b : Bku} (on : s.OnAir) (unit : b.unit.Ok s.mask) : (s.withBku b).OnAir := ⟨on.awake, unit⟩

theorem setPlayer (on : s.OnAir) {id : PlayerId} {x : Player} (onward : (s.bku.player id).Onward x) :
    ({ s with bku := s.bku.setPlayer id x } : State).OnAir := ⟨on.awake, on.unit.setPlayer onward⟩

end State.OnAir

/-! ### Requests that leave the unit, the mask and the holds -/

section Requests
variable (n : Nat) (s : State)

theorem carset_breakInView (a : CarsetArgs) : (carset a s).state.breakInView = s.breakInView := by
  unfold carset
  split
  · dsimp only
    split
    · split <;> rfl
    · rfl
  · rfl

theorem caron_breakInView : (caron n s).state.breakInView = s.breakInView := by
  unfold caron
  split
  · rfl
  · split <;> rfl

theorem caroff_breakInView : (caroff n s).state.breakInView = s.breakInView := by
  unfold caroff
  split
  · rfl
  · split <;> rfl

theorem carclr_breakInView : (carclr n s).state.breakInView = s.breakInView := by
  unfold carclr
  split
  · rfl
  · split <;> rfl

theorem trim_breakInView (g v : Nat) : (trim n g v s).state.breakInView = s.breakInView := by
  unfold trim
  split
  · dsimp only
    split
    · rfl
    · split <;> rfl
  · rfl

theorem grpset_breakInView (a : GrpsetArgs) : (grpset a s).state.breakInView = s.breakInView := by
  by_cases unnamed : 8 ≤ a.group ∨ codeForm a.form = none
  · rw [grpset_of_unnamed unnamed]; rfl
  · obtain ⟨near, form⟩ := not_or.1 unnamed
    obtain ⟨form, named⟩ := Option.ne_none_iff_exists'.1 form
    let g : GroupId := ⟨a.group, not_le.1 near⟩
    cases checks : grpsetRefusal s g a form with
    | some st => rw [grpset_of_refusal (g := g) rfl named checks]; rfl
    | none =>
      rw [grpset_of_pass (g := g) rfl named checks, okWith]
      dsimp only
      split <;> rfl

theorem sprst_breakInView : (sprst n s).state.breakInView = s.breakInView := by
  unfold sprst
  split
  · rfl
  · split <;> rfl

theorem pgopen_breakInView : (pgopen n s).state.breakInView = s.breakInView := by
  unfold pgopen
  split <;> rfl

theorem pgdata_breakInView (bs : List Byte) : (pgdata n bs s).state.breakInView = s.breakInView := by
  unfold pgdata
  split
  · rfl
  · split
    · rfl
    · split <;> rfl

theorem pgcommit_breakInView : (pgcommit s).state.breakInView = s.breakInView := by
  unfold pgcommit
  split
  · rfl
  · split <;> rfl

theorem blkerase_breakInView : (blkerase n s).state.breakInView = s.breakInView := by
  unfold blkerase
  split
  · rfl
  · split <;> rfl

theorem blkguard_breakInView (bar : Nat) : (blkguard n bar s).state.breakInView = s.breakInView := by
  unfold blkguard
  split
  · rfl
  · split
    · rfl
    · split <;> rfl
  · rfl

theorem msgdef_breakInView (a : MsgdefArgs) : (msgdef a s).state.breakInView = s.breakInView := by
  unfold msgdef
  split <;> rfl

theorem msgclr_breakInView : (msgclr n s).state.breakInView = s.breakInView := by
  unfold msgclr
  split
  · rfl
  · split <;> rfl

theorem trksel_breakInView : (trksel n s).state.breakInView = s.breakInView := by
  obtain kept | ⟨q, -, moved⟩ := trksel_cases n s
  · rw [kept]
  · rw [moved]; rfl

theorem save_breakInView : (save s).state.breakInView = s.breakInView := by
  unfold save
  split <;> rfl

theorem restart_breakInView : (restart n s).state.breakInView = s.breakInView := by
  unfold restart
  split
  · rfl
  · split <;> rfl

end Requests

/-! ### Requests to the unit, and levels -/

theorem annc_onAir (a : AnncArgs) {s : State} (on : s.OnAir) : (annc a s).state.OnAir := by
  unfold annc
  split
  · exact on
  · next r _ =>
    split
    · exact on
    · next fresh =>
      split
      · exact on
      · split
        · exact on
        · next room =>
          have free : ∀ q ∈ s.bku.held, q.tag ≠ r.tag := by simpa using fresh
          exact on.withBku (Bku.arbiter_ok (on.unit.joinBehind free (not_le.1 room)))

theorem ancan_onAir (n : Nat) {s : State} (on : s.OnAir) : (ancan n s).state.OnAir := by
  unfold ancan
  split
  · exact on
  · split
    · exact on
    · exact on.withBku (Bku.arbiter_ok (Bku.cancel_ok (b := s.bkuView) on.unit n))

theorem voxset_onAir (a : VoxsetArgs) {s : State} (on : s.OnAir) : (voxset a s).state.OnAir :=
  ⟨on.awake, ⟨on.unit.tags, on.unit.falling, on.unit.players.agrees, on.unit.players.audible, on.unit.players.apart⟩⟩

/-- The INCIDENT event takes the unit from the mask before it to the mask now current (R145, R185). -/
theorem incidentEvent_onAir (cause : IncidentCause) {old : Nat} {s : State} (awake : s.held = false) (unit : s.bku.Ok old) :
    (incidentEvent cause old s).OnAir := by
  refine ⟨?_, ?_⟩
  · rw [State.held, incidentEvent_pins]; exact awake
  · rw [State.mask, incidentEvent_ict, incidentEvent_eq, State.withBku_bku]
    exact Bku.maskChange_ok (b := s.bkuView) unit _

theorem changeLevels_onAir (cause : IncidentCause) {i : Incident} {s : State} (profile : i.profile = s.ict.profile) (on : s.OnAir) :
    (changeLevels cause i s).OnAir := by
  unfold changeLevels
  dsimp only
  split
  · next same =>
    have mask : i.row.announceMask = s.mask := by rw [State.mask, Incident.row, Incident.row, profile, same]
    exact ⟨on.awake, (mask ▸ on.unit : s.bku.Ok i.row.announceMask)⟩
  · exact incidentEvent_onAir cause on.awake on.unit

theorem lineSample_onAir (n : FrameNo) (line : Bool) {s : State} (on : s.OnAir) : (lineSample n line s).OnAir := by
  refine changeLevels_onAir .line ?_ on
  unfold Incident.sample
  split <;> rfl

theorem incclr_onAir {s : State} (on : s.OnAir) : (incclr s).state.OnAir := by
  unfold incclr
  split
  · exact on
  · exact changeLevels_onAir .command (i := { s.ict with latched := 0 }) rfl on

/-- A row written that is not the current one leaves the mask. -/
theorem profset_onAir (a : ProfsetArgs) {s : State} (on : s.OnAir) : (profset a s).state.OnAir := by
  unfold profset
  split
  · next row talk pre prot _ _ _ _ =>
    dsimp only [okWith]
    split
    · exact incidentEvent_onAir .profile on.awake on.unit
    · next other =>
      refine ⟨on.awake, ?_⟩
      have current : ∀ r, (s.ict.profile.put row r).get s.ict.effective = s.ict.row := fun r => Table.get_put_ne _ _ other
      have mask : ∀ r l, ({ s.ict with profile := s.ict.profile.put row r, lineLevel := l } : Incident).row.announceMask = s.mask :=
        fun r _ => congrArg ProfileRow.announceMask (current r)
      rw [State.mask, mask]
      exact on.unit
  · exact on

/-- Any request, answered. -/
theorem requestAct_onAir (v : State → State) (r : Request) {s : State} (on : s.OnAir) : (requestAct v r s).state.OnAir := by
  cases r with
  | rdrec sel part => exact (rdrecOf_state (v s) sel part s).symm ▸ on
  | carset a => exact on.of_eq (carset_breakInView s a)
  | caron n => exact on.of_eq (caron_breakInView n s)
  | caroff n => exact on.of_eq (caroff_breakInView n s)
  | carclr n => exact on.of_eq (carclr_breakInView n s)
  | trim n g x => exact on.of_eq (trim_breakInView n s g x)
  | grpset a => exact on.of_eq (grpset_breakInView s a)
  | sprst n => exact on.of_eq (sprst_breakInView n s)
  | incset n => exact changeLevels_onAir .command (i := { s.ict with commanded := levelOf n }) rfl on
  | incclr => exact incclr_onAir on
  | profset a => exact profset_onAir a on
  | annc a => exact annc_onAir a on
  | ancan n => exact ancan_onAir n on
  | voxset a => exact voxset_onAir a on
  | pgopen n => exact on.of_eq (pgopen_breakInView n s)
  | pgdata off bs => exact on.of_eq (pgdata_breakInView off s bs)
  | pgcommit => exact on.of_eq (pgcommit_breakInView s)
  | blkerase n => exact on.of_eq (blkerase_breakInView n s)
  | blkguard n bar => exact on.of_eq (blkguard_breakInView n s bar)
  | msgdef a => exact on.of_eq (msgdef_breakInView s a)
  | msgclr n => exact on.of_eq (msgclr_breakInView n s)
  | trksel n => exact on.of_eq (trksel_breakInView n s)
  | timset limit x => exact on.of_eq rfl
  | save => exact on.of_eq (save_breakInView s)
  | restart n => exact on.of_eq (restart_breakInView n s)
  | causeclr => exact on.of_eq rfl

theorem serve_onAir (v : State → State) (p : TrunkId) (tag : Nat) (r : Request) {s : State} (on : s.OnAir) :
    (serve p tag (requestCode r) (requestAct v r) s).OnAir := by
  unfold serve
  obtain ⟨-, refused⟩ | ⟨-, -, -, refused⟩ | ⟨-, -, heard⟩ := check_cases p tag (requestCode r) (requestAct v r) s
  · rw [refused]; exact on.of_eq rfl
  · rw [refused]; exact on.of_eq rfl
  · rw [heard]; exact (requestAct_onAir v r on).of_eq rfl

/-! ### Resets and start-up (R160, R205) -/

theorem Player.default_agrees : Player.default.Agrees := Player.agrees_of_idle rfl rfl rfl

theorem resetBlocks_atRest_unit (keep : Bool) (causes : CauseRecord) (s : State) :
    (resetBlocks keep causes s).bku.AtRest ∧ ∀ id, ((resetBlocks keep causes s).bku.player id).Agrees :=
  ⟨⟨rfl, rfl, rfl⟩, fun id => by cases id <;> exact Player.default_agrees⟩

/-- A start-up leaves a unit at rest, whatever mask and parameters it loads. -/
theorem startUpLoading_onAir {s : State} (awake : s.held = false) (rest : s.bku.AtRest) (agrees : ∀ id, (s.bku.player id).Agrees) :
    (startUpLoading s).OnAir := by
  unfold startUpLoading
  split
  · exact ⟨awake, .of_atRest rest agrees _⟩
  · next x _ => exact ⟨awake, .of_atRest (b := { s.bku with params := x.params }) ⟨rest.queue, rest.bp0, rest.bp1⟩ agrees _⟩

theorem restartNow_onAir (f : RestartForm) {s : State} (on : s.OnAir) : (restartNow f s).OnAir := by
  cases f with
  | keep =>
    obtain ⟨rest, agrees⟩ := resetBlocks_atRest_unit true (s.mga.causes.restarted .keep) s
    exact ⟨on.awake, .of_atRest rest agrees _⟩
  | reload =>
    obtain ⟨rest, agrees⟩ := resetBlocks_atRest_unit false (s.mga.causes.restarted .reload) s
    exact startUpLoading_onAir on.awake rest agrees

theorem restartTakesEffect_onAir {s : State} (on : s.OnAir) : (restartTakesEffect s).OnAir := by
  unfold restartTakesEffect
  split
  · exact restartNow_onAir _ on
  · exact on

/-- A reset leaves the unit at rest, held or not. -/
theorem resetBlocks_breakInOk (keep : Bool) (causes : CauseRecord) (pins : Pins) (s : State) :
    ({ resetBlocks keep causes s with pins := pins } : State).breakInOk := by
  obtain ⟨rest, agrees⟩ := resetBlocks_atRest_unit keep causes s
  exact (breakInOk_iff _).2 ⟨.of_atRest rest agrees _, fun _ => rest⟩

theorem lineReset_breakInOk {s : State} (law : s.breakInOk) : (lineReset s).breakInOk := by
  unfold lineReset
  split
  · exact law
  · exact resetBlocks_breakInOk false _ _ s

/-- A hold ended: held on by the other, or started up from rest. -/
theorem leaveReset_breakInOk {s : State} (rest : s.bku.AtRest) (agrees : ∀ id, (s.bku.player id).Agrees) : (leaveReset s).breakInOk := by
  unfold leaveReset
  split
  · exact (breakInOk_iff s).2 ⟨.of_atRest rest agrees _, fun _ => rest⟩
  · next awake => exact (startUpLoading_onAir (Bool.eq_false_of_not_eq_true awake) rest agrees).breakInOk

theorem resetInputRelease_breakInOk {s : State} (law : s.breakInOk) : (resetInputRelease s).breakInOk := by
  obtain ⟨ok, rest⟩ := (breakInOk_iff s).1 law
  unfold resetInputRelease
  split
  · next input =>
    have held : s.held = true := by rw [State.held, input, Bool.true_or]
    exact leaveReset_breakInOk (s := { s with pins := { s.pins with resetInput := false } }) (rest held) ok.players.agrees
  · exact law

theorem suppliesSteady_breakInOk {s : State} (law : s.breakInOk) : (suppliesSteady s).breakInOk := by
  obtain ⟨ok, rest⟩ := (breakInOk_iff s).1 law
  unfold suppliesSteady
  split
  · next hold =>
    have held : s.held = true := by rw [State.held, hold, Bool.or_true]
    exact leaveReset_breakInOk (s := { s with pins := { s.pins with powerHold := false } }) (rest held) ok.players.agrees
  · exact law

/-! ### Events -/

theorem fadeEnd_onAir (id : PlayerId) {s : State} (on : s.OnAir) : (fadeEnd id s).OnAir := by
  have agrees := on.unit.players.agrees id
  unfold fadeEnd
  dsimp only
  split
  · next fadeIn =>
    split
    · exact on.setPlayer (.of_running agrees rfl ((Player.running_iff _).2 (by rw [fadeIn]; decide)) rfl rfl)
    · exact on
  · split
    · have faded := on.unit.setPlayer (x := { s.bku.player id with fade := 0 }) (.of_kept agrees rfl rfl rfl)
      exact on.withBku (Bku.arbiter_ok (Bku.finish_ok (b := ⟨_, []⟩) faded id))
    · exact on
  · exact on

theorem gapEnd_onAir (id : PlayerId) {s : State} (on : s.OnAir) : (gapEnd id s).OnAir := by
  unfold gapEnd
  dsimp only
  split
  · next due => exact on.setPlayer (Player.gapEnded_onward (on.unit.players.agrees id) due.1)
  · exact on

theorem liveSpeechLoss_onAir (id : PlayerId) {s : State} (on : s.OnAir) : (liveSpeechLoss id s).OnAir := by
  unfold liveSpeechLoss
  dsimp only
  split
  · next due =>
    have busy : (s.bku.player id).state ≠ .idle := by obtain fadeIn | playing := due.1 <;> simp [*]
    exact on.setPlayer (.of_fadeOut rfl busy rfl rfl)
  · exact on

section Events
variable (s : State)

theorem holdoverExpiry_breakInView : (holdoverExpiry s).breakInView = s.breakInView := by
  unfold holdoverExpiry
  split <;> rfl

theorem laneGuardExpiry_breakInView (g : GroupId) (l : LaneId) : (laneGuardExpiry g l s).breakInView = s.breakInView := by
  unfold laneGuardExpiry
  split <;> rfl

theorem overBudget_breakInView (g : GroupId) : (overBudget g s).breakInView = s.breakInView := by
  unfold overBudget
  dsimp only
  split <;> rfl

theorem missLimitReached_breakInView (g : GroupId) (k : Pos) (sd : Side) : (missLimitReached g k sd s).breakInView = s.breakInView := by
  unfold missLimitReached
  dsimp only
  split <;> rfl

theorem hangExpiry_breakInView (g : GroupId) (l : LaneId) (k : Pos) : (hangExpiry g l k s).breakInView = s.breakInView := by
  unfold hangExpiry
  dsimp only
  split <;> rfl

theorem spanUplinkFrameArrival_breakInView (p : SpanId) (bs : List Byte) :
    (spanUplinkFrameArrival p bs s).breakInView = s.breakInView := by
  unfold spanUplinkFrameArrival
  split <;> rfl

theorem storeProgramCompletion_breakInView (r : StoreResult) : (storeProgramCompletion r s).breakInView = s.breakInView := by
  unfold storeProgramCompletion
  split <;> rfl

theorem storeEraseCompletion_breakInView (r : StoreResult) : (storeEraseCompletion r s).breakInView = s.breakInView := by
  unfold storeEraseCompletion
  split <;> rfl

theorem settingsSaveCompletion_breakInView (r : StoreResult) : (settingsSaveCompletion r s).breakInView = s.breakInView := by
  unfold settingsSaveCompletion
  split <;> rfl

end Events

/-! ### The slot event -/

/-- The works of a slot move the unit by its own work alone. -/
theorem slotWorked_onAir (n : FrameNo) (ord : SlotOrder) {s : State} (on : s.OnAir) : (slotWorked n ord s).OnAir := by
  have worked := slotWorked_eq n ord s
  dsimp only at worked
  rw [worked]
  exact ⟨on.awake, Bku.slotWork_ok n s.ast s.bku.params _ _ (b := s.bkuView) on.unit⟩

theorem takeFrameCell_onAir (v : State → State) (p : TrunkId) (f : Option (List Byte)) {s : State} (on : s.OnAir) :
    (takeFrameCell v p f s).OnAir := by
  unfold takeFrameCell
  split
  · unfold takeCell
    split
    · exact on.of_eq rfl
    · exact on
    · exact on.of_eq rfl
    · exact serve_onAir v p _ _ on
  · exact on

theorem slot_onAir (line : Bool) (ord : SlotOrder) {s : State} (on : s.OnAir) : (slot line ord s).OnAir := by
  unfold slot
  split
  · exact restartNow_onAir _ on
  · have ended := tail_keeps (law := State.OnAir) ord.tail (lineSample_onAir s.fps.next line)
      (takeFrameCell_onAir (earlyView ord s) .a (openSlot s.fps.next ord s).2.frameA)
      (takeFrameCell_onAir (earlyView ord s) .b (openSlot s.fps.next ord s).2.frameB) (slotWorked_onAir s.fps.next ord on)
    exact ended.of_eq rfl

/-! ### The step -/

theorem requestCommand_breakInOk {p : TrunkId} {tag : Nat} {s t : State} (law : s.breakInOk) (r : Request)
    (h : requestCommand p tag (requestCode r) (requestAct id r) s = .next t) : t.breakInOk := by
  cases h
  split
  · exact law
  · next awake =>
    have on : s.OnAir := ⟨Bool.eq_false_of_not_eq_true awake, ((breakInOk_iff s).1 law).1⟩
    exact ((serve_onAir id p tag r on).of_eq rfl).breakInOk

theorem eventCommand_breakInOk {act : State → State} {s t : State} (law : s.breakInOk) (event : s.OnAir → (act s).OnAir)
    (h : eventCommand act s = .next t) : t.breakInOk := by
  cases h
  split
  · exact law
  · next awake => exact (event ⟨Bool.eq_false_of_not_eq_true awake, ((breakInOk_iff s).1 law).1⟩).breakInOk

/-- Any command: what acts on a held hub leaves the unit at rest, and any other acts on a hub out of reset alone. -/
theorem exec_breakInOk {i : Instr} {s t : State} (law : s.breakInOk) (h : exec i s = .next t) : t.breakInOk := by
  cases i with
  | slot line order => exact eventCommand_breakInOk law (slot_onAir line order) h
  | holdoverExpiry => exact eventCommand_breakInOk law (·.of_eq (holdoverExpiry_breakInView s)) h
  | laneGuardExpiry g l => exact eventCommand_breakInOk law (·.of_eq (laneGuardExpiry_breakInView s g l)) h
  | overBudget g => exact eventCommand_breakInOk law (·.of_eq (overBudget_breakInView s g)) h
  | missLimitReached g k sd => exact eventCommand_breakInOk law (·.of_eq (missLimitReached_breakInView s g k sd)) h
  | hangExpiry g l k => exact eventCommand_breakInOk law (·.of_eq (hangExpiry_breakInView s g l k)) h
  | fadeEnd p => exact eventCommand_breakInOk law (fadeEnd_onAir p) h
  | gapEnd p => exact eventCommand_breakInOk law (gapEnd_onAir p) h
  | liveSpeechLoss p => exact eventCommand_breakInOk law (liveSpeechLoss_onAir p) h
  | trunkFrameArrival p f => exact eventCommand_breakInOk (act := trunkFrameArrival p f) law (·.of_eq rfl) h
  | spanUplinkFrameArrival p f => exact eventCommand_breakInOk law (·.of_eq (spanUplinkFrameArrival_breakInView s p f)) h
  | rdrec p tag sel part => exact requestCommand_breakInOk law (.rdrec sel part) h
  | carset p tag a => exact requestCommand_breakInOk law (.carset a) h
  | caron p tag n => exact requestCommand_breakInOk law (.caron n) h
  | caroff p tag n => exact requestCommand_breakInOk law (.caroff n) h
  | carclr p tag n => exact requestCommand_breakInOk law (.carclr n) h
  | trim p tag n g v => exact requestCommand_breakInOk law (.trim n g v) h
  | grpset p tag a => exact requestCommand_breakInOk law (.grpset a) h
  | sprst p tag n => exact requestCommand_breakInOk law (.sprst n) h
  | incset p tag n => exact requestCommand_breakInOk law (.incset n) h
  | incclr p tag => exact requestCommand_breakInOk law .incclr h
  | profset p tag a => exact requestCommand_breakInOk law (.profset a) h
  | annc p tag a => exact requestCommand_breakInOk law (.annc a) h
  | ancan p tag n => exact requestCommand_breakInOk law (.ancan n) h
  | voxset p tag a => exact requestCommand_breakInOk law (.voxset a) h
  | pgopen p tag n => exact requestCommand_breakInOk law (.pgopen n) h
  | pgdata p tag off bs => exact requestCommand_breakInOk law (.pgdata off bs) h
  | pgcommit p tag => exact requestCommand_breakInOk law .pgcommit h
  | blkerase p tag n => exact requestCommand_breakInOk law (.blkerase n) h
  | blkguard p tag n bar => exact requestCommand_breakInOk law (.blkguard n bar) h
  | msgdef p tag a => exact requestCommand_breakInOk law (.msgdef a) h
  | msgclr p tag n => exact requestCommand_breakInOk law (.msgclr n) h
  | trksel p tag n => exact requestCommand_breakInOk law (.trksel n) h
  | timset p tag limit v => exact requestCommand_breakInOk law (.timset limit v) h
  | save p tag => exact requestCommand_breakInOk law .save h
  | restart p tag n => exact requestCommand_breakInOk law (.restart n) h
  | causeclr p tag => exact requestCommand_breakInOk law .causeclr h
  | storeProgramCompletion r => exact eventCommand_breakInOk law (·.of_eq (storeProgramCompletion_breakInView s r)) h
  | storeEraseCompletion r => exact eventCommand_breakInOk law (·.of_eq (storeEraseCompletion_breakInView s r)) h
  | settingsSaveCompletion r => exact eventCommand_breakInOk law (·.of_eq (settingsSaveCompletion_breakInView s r)) h
  | powerOn => cases h; exact resetBlocks_breakInOk false _ _ s
  | lineReset => cases h; exact lineReset_breakInOk law
  | restartTakesEffect => exact eventCommand_breakInOk law restartTakesEffect_onAir h
  | resetInputRelease => cases h; exact resetInputRelease_breakInOk law
  | suppliesSteady => cases h; exact suppliesSteady_breakInOk law

end Sys2Proof.Machine

namespace Sys2Proof.Proofs
open Sys2Proof Sys2Proof.Machine

/-- Settles O58: on a hub out of reset each player goes on with its request or gives it up to the queue or to nobody, the arbiter starts only what is
clear of the zones it has met, and a new mask sends below it to FADE_OUT; a reset leaves the unit at rest, where any mask will do. -/
theorem stepKeepsBreakIn : Obligations.StepKeepsBreakIn := by
  intro s t law h
  unfold step at h
  split at h
  · cases h; exact law
  · next rest _ => exact exec_breakInOk (s := { s with pending := rest }) law h

end Sys2Proof.Proofs
end

section
/-! FADE_END, GAP_END and LIVE_SPEECH_LOSS: what each makes of a player where it is due (R142, R147, R149, R150). -/
namespace Sys2Proof.Machine

variable {s : State} {id : PlayerId}

@[simp] theorem BreakIn.setPlayer_setPlayer (b : BreakIn) (id : PlayerId) (x y : Player) :
    (b.setPlayer id x).setPlayer id y = b.setPlayer id y := by cases id <;> rfl

@[simp] theorem BreakIn.setPlayer_lastWork (b : BreakIn) (id : PlayerId) (x : Player) : (b.setPlayer id x).lastWork = b.lastWork := by
  cases id <;> rfl

theorem fadeEnd_of_fadeIn (fadeIn : (s.bku.player id).state = .fadeIn) (due : 4096 ≤ (s.bku.player id).fade + s.bku.params.fadeStep) :
    fadeEnd id s = { s with bku := s.bku.setPlayer id { s.bku.player id with state := .playing, fade := 4096 } } := by
  simp only [fadeEnd, fadeIn, if_pos due]

theorem fadeEnd_of_fadeOut (fadeOut : (s.bku.player id).state = .fadeOut) (due : (s.bku.player id).fade ≤ s.bku.params.fadeStep) :
    fadeEnd id s = s.withBku (Bku.arbiter s.mask (Bku.finish ⟨s.bku.setPlayer id { s.bku.player id with fade := 0 }, []⟩ id)) := by
  simp only [fadeEnd, fadeOut, if_pos due]
  rfl

theorem fadeEnd_of_undue (up : (s.bku.player id).state = .fadeIn → (s.bku.player id).fade + s.bku.params.fadeStep < 4096)
    (down : (s.bku.player id).state = .fadeOut → s.bku.params.fadeStep < (s.bku.player id).fade) : fadeEnd id s = s := by
  unfold fadeEnd
  dsimp only
  split
  · next fadeIn => exact if_neg (not_le.2 (up fadeIn))
  · next fadeOut => exact if_neg (not_le.2 (down fadeOut))
  · rfl

/-- The unit once a fade-out at 0 has been carried out: the player is IDLE, and its request has ended or joined the queue (R142). -/
def BreakIn.carriedOut (b : BreakIn) (id : PlayerId) (r : AnnRequest) (i : Intent) : Bku :=
  let u := b.setPlayer id { b.player id with state := .idle, request := none, intent := none, fade := 0 }
  match i with
  | .finish o => ⟨u, [.announceEnd r.tag o r.playsDone]⟩
  | .requeue => ⟨{ u with queue := joinAhead u.queue r }, [.announceRequeued r.tag id r.playsDone]⟩

section CarriedOut
variable {b : BreakIn} {r : AnnRequest} {i : Intent} (request : (b.player id).request = some r)

include request in
theorem BreakIn.finish_faded (intent : (b.player id).intent = some i) :
    Bku.finish ⟨b.setPlayer id { b.player id with fade := 0 }, []⟩ id = b.carriedOut id r i := by
  have faded := b.player_setPlayer id { b.player id with fade := 0 }
  cases i with
  | finish o =>
    rw [Bku.finish_of_end (r := r) (o := o) (by rw [faded]; exact request) (by rw [faded]; exact intent)]
    simp only [Bku.idled, faded, BreakIn.setPlayer_setPlayer]
    rfl
  | requeue =>
    rw [Bku.finish_of_requeue (r := r) (by rw [faded]; exact request) (by rw [faded]; exact intent)]
    simp only [Bku.idled, faded, BreakIn.setPlayer_setPlayer]
    rfl

theorem BreakIn.carriedOut_params (b : BreakIn) (id : PlayerId) (r : AnnRequest) (i : Intent) :
    (b.carriedOut id r i).unit.params = b.params ∧ (b.carriedOut id r i).unit.lastWork = b.lastWork := by
  cases i with
  | finish o => exact ⟨b.setPlayer_params id _, b.setPlayer_lastWork id _⟩
  | requeue => exact ⟨b.setPlayer_params id _, b.setPlayer_lastWork id _⟩

include request in
theorem BreakIn.held_of_end (o : AnnOutcome) : b.held.Perm (r :: (b.carriedOut id r (.finish o)).unit.held) :=
  BreakIn.held_perm_of_freed request rfl

include request in
theorem BreakIn.held_of_requeue : b.held.Perm (b.carriedOut id r .requeue).unit.held :=
  (BreakIn.held_perm_of_freed request rfl).trans (BreakIn.held_joined (joinAhead_perm _ r)).symm

theorem BreakIn.carriedOut_ok {mask : Nat} (ok : b.Ok mask) (intent : (b.player id).intent = some i) (request : (b.player id).request = some r) :
    (b.carriedOut id r i).unit.Ok mask := by
  rw [← BreakIn.finish_faded request intent]
  have faded := ok.setPlayer (x := { b.player id with fade := 0 }) (.of_kept (ok.players.agrees id) rfl rfl rfl)
  exact Bku.finish_ok (b := ⟨_, []⟩) faded id

end CarriedOut

theorem gapEnd_eq (id : PlayerId) (s : State) : gapEnd id s =
    let x := s.bku.player id
    if x.state = .gap ∧ x.gapLeft ≤ 1 then
      { s with bku := s.bku.setPlayer id { x with gapLeft := 0, progress := 0, state := if x.fade = 4096 then .playing else .fadeIn } }
    else s := rfl

theorem liveSpeechLoss_of_live {r : AnnRequest} (request : (s.bku.player id).request = some r) (live : r.message = .live)
    (heard : (s.bku.player id).state = .fadeIn ∨ (s.bku.player id).state = .playing) :
    liveSpeechLoss id s = if 399 ≤ (s.bku.player id).liveMiss then
      { s with bku := s.bku.setPlayer id { s.bku.player id with state := .fadeOut, intent := some (.finish .sourceLost), liveMiss := 400 } }
    else s := by
  have named : (s.bku.player id).request.any (fun r => r.message == .live) = true := by simp [request, live]
  exact if_congr ⟨fun due => due.2.2, fun due => ⟨heard, named, due⟩⟩ rfl rfl

end Sys2Proof.Machine

namespace Sys2Proof.Proofs
open Sys2Proof Sys2Proof.Machine

/-- Settles O29: the row is due at the last step of the fade; a fade-out then carries out its intent, and the arbiter, which holds what it finds held,
runs over what that leaves. -/
theorem fadeEndCarriesOutTheIntent : Obligations.FadeEndCarriesOutTheIntent := by
  intro s id awake x
  have event : ∀ {t}, fadeEnd id s = t → exec (.fadeEnd id) s = .next t := fun done => (eventCommand_awake awake _).trans (congrArg _ done)
  refine ⟨fun fadeIn due => event (fadeEnd_of_fadeIn fadeIn due), fun up down => event (fadeEnd_of_undue up down), ?_⟩
  intro r i law fadeOut due request intent u ahead done b
  have carried : done = s.bku.carriedOut id r i := by cases i <;> rfl
  have ok : done.unit.Ok s.mask := carried ▸ BreakIn.carriedOut_ok ((breakInOk_iff s).1 law).1 intent request
  obtain ⟨held, -, params, work⟩ := Bku.arbiter_keeps s.mask done ok.players.filled
  obtain ⟨keptParams, keptWork⟩ := s.bku.carriedOut_params id r i
  refine ⟨event ?_, Bku.arbiter_out s.mask done, fun o ends => ?_, fun requeues => ?_, params.trans (carried ▸ keptParams),
    work.trans (carried ▸ keptWork)⟩
  · rw [fadeEnd_of_fadeOut fadeOut due, BreakIn.finish_faded request intent, ← carried]
    rfl
  · subst ends
    exact (BreakIn.held_of_end request o).trans (.cons r held.symm)
  · subst requeues
    exact (BreakIn.held_of_requeue request).trans held.symm

end Sys2Proof.Proofs
end

section
/-! ANCAN (R138): which request a tag names, and what cancelling it leaves. -/
namespace Sys2Proof.Machine

section Cancel
variable {b : BreakIn} {id : PlayerId} {r : AnnRequest}

/-- No other held request has the tag of the one on a player. -/
theorem BreakIn.tag_ne_of_beside (tags : (b.held.map (·.tag)).Nodup) (request : (b.player id).request = some r) :
    ∀ q ∈ b.heldBeside id, q.tag ≠ r.tag := by
  have listed := (b.held_perm id).map (·.tag)
  rw [request] at listed
  have fresh := (List.nodup_cons.1 (listed.nodup_iff.1 tags)).1
  exact fun q hq same => fresh (List.mem_map.2 ⟨q, hq, same⟩)

/-- No request on a player has the tag of a queued one. -/
theorem BreakIn.tag_ne_of_queued (tags : (b.held.map (·.tag)).Nodup) (queued : r ∈ b.queue) : ∀ q ∈ b.onPlayers, q.tag ≠ r.tag := by
  rw [BreakIn.held_eq_onPlayers, List.map_append, List.nodup_append] at tags
  obtain ⟨-, -, apart⟩ := tags
  exact fun q hq same => apart _ (List.mem_map_of_mem queued) _ (List.mem_map_of_mem hq) same.symm

theorem BreakIn.find_queued (tags : (b.held.map (·.tag)).Nodup) (queued : r ∈ b.queue) : b.queue.find? (·.tag == r.tag) = some r := by
  rw [BreakIn.held_eq_onPlayers, List.map_append] at tags
  have injective := List.inj_on_of_nodup_map (List.nodup_append.1 tags).1
  cases found : b.queue.find? (·.tag == r.tag) with
  | none => exact absurd (beq_self_eq_true r.tag) (List.find?_eq_none.1 found r queued)
  | some q =>
    have same : (q.tag == r.tag) = true := List.find?_some (p := fun q : AnnRequest => q.tag == r.tag) found
    rw [injective (List.mem_of_find?_eq_some found) queued (eq_of_beq same)]

/-- What is held once a queued request has left. -/
theorem BreakIn.held_filter (tags : (b.held.map (·.tag)).Nodup) (queued : r ∈ b.queue) :
    ({ b with queue := b.queue.filter (·.tag != r.tag) } : BreakIn).held = b.held.filter (·.tag != r.tag) := by
  have stay : b.onPlayers.filter (·.tag != r.tag) = b.onPlayers :=
    List.filter_eq_self.2 fun q hq => bne_iff_ne.2 (BreakIn.tag_ne_of_queued tags queued q hq)
  rw [BreakIn.held_eq_onPlayers, BreakIn.held_eq_onPlayers, List.filter_append, stay]
  rfl

theorem Bku.cancel_of_queued (tags : (b.held.map (·.tag)).Nodup) (queued : r ∈ b.queue) :
    Bku.cancel ⟨b, []⟩ r.tag = ⟨{ b with queue := b.queue.filter (·.tag != r.tag) }, [.announceEnd r.tag .cancelled r.playsDone]⟩ := by
  simp only [Bku.cancel, BreakIn.find_queued tags queued]
  rfl

theorem Player.cancelled_of_named {p : Player} (request : p.request = some r) :
    p.cancelled r.tag = { p with state := .fadeOut, intent := some (.finish .cancelled) } := by
  have named : p.request.any (·.tag == r.tag) = true := by simp [request]
  exact if_pos named

theorem Player.cancelled_of_other {p : Player} {tag : Nat} (other : ∀ q ∈ p.request, q.tag ≠ tag) : p.cancelled tag = p := by
  have unnamed : ¬p.request.any (·.tag == tag) = true := by
    rw [Option.any_eq_true]
    rintro ⟨q, request, same⟩
    exact other q request (eq_of_beq same)
  exact if_neg unnamed

theorem Bku.cancel_of_player (tags : (b.held.map (·.tag)).Nodup) (request : (b.player id).request = some r) :
    Bku.cancel ⟨b, []⟩ r.tag =
      ⟨b.setPlayer id { b.player id with state := .fadeOut, intent := some (.finish .cancelled) }, []⟩ := by
  have beside := BreakIn.tag_ne_of_beside tags request
  have unqueued : b.queue.find? (·.tag == r.tag) = none := List.find?_eq_none.2 fun q hq same =>
    beside q (List.mem_append_left _ hq) (eq_of_beq same)
  have own := Player.cancelled_of_named request
  have other : (b.player (otherPlayer id)).cancelled r.tag = b.player (otherPlayer id) := Player.cancelled_of_other fun q hq =>
    beside q (List.mem_append_right _ (Option.mem_toList.2 hq))
  simp only [Bku.cancel, unqueued]
  cases id with
  | bp0 =>
    simp only [BreakIn.player, otherPlayer] at own other
    rw [own, other]
    rfl
  | bp1 =>
    simp only [BreakIn.player, otherPlayer] at own other
    rw [own, other]
    rfl

end Cancel

section Ancan
variable {s : State} {n : Nat} {r : AnnRequest}

theorem ancan_of_unheld (tag : n ≠ 0) (unheld : ∀ r ∈ s.bku.held, r.tag ≠ n) : ancan n s = refuse .notFound s := by
  have all : s.bku.held.all (·.tag != n) = true := List.all_eq_true.2 fun r hr => bne_iff_ne.2 (unheld r hr)
  rw [ancan, if_neg tag, if_pos all]

theorem ancan_of_held (tag : r.tag ≠ 0) (held : r ∈ s.bku.held) :
    ancan r.tag s = okWith (s.withBku (Bku.arbiter s.mask (s.bkuView.cancel r.tag))) [] := by
  have named : ¬s.bku.held.all (·.tag != r.tag) = true := fun all => bne_iff_ne.1 (List.all_eq_true.1 all r held) rfl
  rw [ancan, if_neg tag, if_neg named]
  rfl

end Ancan

/-- Notices of a run of the arbiter over requests among some: it starts those alone. -/
theorem Bku.arbiter_starts (mask : Nat) (b : Bku) {among : List AnnRequest} (sub : ∀ q ∈ b.unit.queue, q ∈ among) :
    ∃ more : List Notice, (b.arbiter mask).out = b.out ++ more ∧
      ∀ x ∈ more, ∃ q id, x = .announceStart q.tag id q.message q.playsDone ∧ q ∈ among := by
  obtain ⟨more, said, starts⟩ := b.arbiter_out mask
  refine ⟨more, said, fun x hx => ?_⟩
  obtain ⟨q, id, start, queued⟩ := starts x hx
  exact ⟨q, id, start, sub q queued⟩

/-- Where nothing was raised before the run, the starts are all that is raised. -/
theorem Bku.arbiter_starts_alone (mask : Nat) (b : Bku) {among : List AnnRequest} (sub : ∀ q ∈ b.unit.queue, q ∈ among)
    (silent : b.out = []) : ∀ x ∈ (b.arbiter mask).out, ∃ q id, x = .announceStart q.tag id q.message q.playsDone ∧ q ∈ among := by
  obtain ⟨more, said, starts⟩ := b.arbiter_starts mask sub
  rw [said, silent]
  exact starts

theorem BreakIn.mem_held_of_request {b : BreakIn} {id : PlayerId} {r : AnnRequest} (request : (b.player id).request = some r) :
    r ∈ b.held := by
  refine (b.held_perm id).mem_iff.2 ?_
  rw [request]
  exact List.mem_cons_self

end Sys2Proof.Machine

namespace Sys2Proof.Proofs
open Sys2Proof Sys2Proof.Machine

/-- Settles O27: distinct tags make the request that a tag names the only one; it leaves the queue, or its player fades out, and the arbiter leaves a
player in FADE_OUT as it is. -/
theorem ancanCancelsTheRequest : Obligations.AncanCancelsTheRequest := by
  intro s p tag n h law
  have ok := ((breakInOk_iff s).1 law).1
  refine ⟨?_, fun named unheld => exec_heard h (.ancan n) (ancan_of_unheld named unheld), ?_⟩
  · rintro rfl
    exact exec_heard h (.ancan 0) rfl
  · rintro r named rfl after starts
    constructor
    · intro queued b
      have cancelled : s.bkuView.cancel r.tag =
          ⟨{ s.bku with queue := s.bku.queue.filter (·.tag != r.tag) }, [.announceEnd r.tag .cancelled r.playsDone]⟩ :=
        Bku.cancel_of_queued ok.tags.2 queued
      have left := Bku.cancel_ok (b := s.bkuView) ok r.tag
      rw [cancelled] at left
      obtain ⟨held, -, params, work⟩ := Bku.arbiter_keeps s.mask ⟨_, _⟩ left.players.filled
      obtain ⟨more, said, started⟩ := Bku.arbiter_starts s.mask
        ⟨{ s.bku with queue := s.bku.queue.filter (·.tag != r.tag) }, [.announceEnd r.tag .cancelled r.playsDone]⟩
        (fun q hq => (List.mem_filter.1 hq).1)
      have answer := ancan_of_held named (List.mem_append_left _ (List.mem_append_left _ queued))
      rw [cancelled] at answer
      refine ⟨exec_heard h (.ancan r.tag) answer, ?_, ⟨more, started, said⟩, params, work⟩
      rw [← BreakIn.held_filter ok.tags.2 queued]
      exact held
    · intro id request x b
      have cancelled : s.bkuView.cancel r.tag = ⟨s.bku.setPlayer id x, []⟩ := Bku.cancel_of_player ok.tags.2 request
      have left := Bku.cancel_ok (b := s.bkuView) ok r.tag
      rw [cancelled] at left
      obtain ⟨held, -, params, work⟩ := Bku.arbiter_keeps s.mask ⟨_, _⟩ left.players.filled
      have started : starts b.out := Bku.arbiter_starts_alone s.mask ⟨s.bku.setPlayer id x, []⟩
        (fun q hq => s.bku.setPlayer_queue id x ▸ hq) rfl
      have answer := ancan_of_held named (BreakIn.mem_held_of_request request)
      rw [cancelled] at answer
      have fading : ((s.bku.setPlayer id x).player id).state = .fadeOut := by rw [BreakIn.player_setPlayer]
      have beside := (s.bku.held_setPlayer id x).trans (s.bku.held_perm id).symm
      have faded : (b.unit.player id) = x :=
        (Bku.arbiter_fadeOut s.mask ⟨s.bku.setPlayer id x, []⟩ id fading).trans (s.bku.player_setPlayer id x)
      exact ⟨exec_heard h (.ancan r.tag) answer, held.trans beside, faded, started, params.trans (s.bku.setPlayer_params id x),
        work.trans (s.bku.setPlayer_lastWork id x)⟩

end Sys2Proof.Proofs
end

section
/-! ANNC (R135 to R137) and the walk of the player arbiter over the queue (R141, R143, R144). -/
namespace Sys2Proof.Machine

/-! ### What ANNC names (R135, R136) -/

section Named
variable {a : AnncArgs}

/-- The carrier set that ANNC names by its form. -/
def anncSet (a : AnncArgs) : Option CarrierSet :=
  match a.setForm with
  | 0 => if BitVec.ofNat 64 a.carriers = 0 then none else some (.only (BitVec.ofNat 64 a.carriers))
  | 1 => some .all
  | _ => none

theorem anncSet_of_named (named : a.setForm = 0 ∧ BitVec.ofNat 64 a.carriers ≠ 0 ∨ a.setForm = 1) :
    anncSet a = some (if a.setForm = 1 then .all else .only (BitVec.ofNat 64 a.carriers)) := by
  unfold anncSet
  obtain ⟨form, filled⟩ | form := named
  · rw [form]; exact if_neg filled
  · rw [form]; rfl

theorem anncSet_of_unnamed (unnamed : (a.setForm = 0 ∧ BitVec.ofNat 64 a.carriers = 0) ∨ 2 ≤ a.setForm) : anncSet a = none := by
  unfold anncSet
  obtain ⟨form, empty⟩ | far := unnamed
  · rw [form]; exact if_pos empty
  · split
    · omega
    · omega
    · rfl

/-- The request that ANNC makes of what it names: priority and repeat held at 15, the repeat 0 where LIVE, no play done. -/
def anncMade (a : AnncArgs) (m : MessageRef) : AnnRequest where
  tag := a.tag
  message := m
  priority := min a.priority 15
  plays := if m = .live then 0 else min a.plays 15
  gap := a.gap
  zones := BitVec.ofNat 8 a.zones
  carriers := if a.setForm = 1 then .all else .only (BitVec.ofNat 64 a.carriers)
  playsDone := 0

theorem anncRequest_eq (a : AnncArgs) : anncRequest a =
    match codeMessage a.message, anncSet a with
    | some m, some cs =>
      if a.tag = 0 ∨ BitVec.ofNat 8 a.zones = 0 then none
      else some {
        tag := a.tag, message := m, priority := min a.priority 15, plays := if m = .live then 0 else min a.plays 15,
        gap := a.gap, zones := BitVec.ofNat 8 a.zones, carriers := cs, playsDone := 0 }
    | _, _ => none := rfl

theorem anncRequest_of_unnamed (unnamed : a.tag = 0 ∨ codeMessage a.message = none ∨ BitVec.ofNat 8 a.zones = 0 ∨
    (a.setForm = 0 ∧ BitVec.ofNat 64 a.carriers = 0) ∨ 2 ≤ a.setForm) : anncRequest a = none := by
  rw [anncRequest_eq]
  split
  · next message set =>
    have first : a.tag = 0 ∨ BitVec.ofNat 8 a.zones = 0 := by
      obtain tag | noMessage | zones | noSet := unnamed
      · exact .inl tag
      · exact nomatch message.symm.trans noMessage
      · exact .inr zones
      · exact nomatch set.symm.trans (anncSet_of_unnamed noSet)
    exact if_pos first
  · rfl

theorem anncRequest_of_named {m : MessageRef} (tag : a.tag ≠ 0) (message : codeMessage a.message = some m)
    (zones : BitVec.ofNat 8 a.zones ≠ 0) (set : a.setForm = 0 ∧ BitVec.ofNat 64 a.carriers ≠ 0 ∨ a.setForm = 1) :
    anncRequest a = some (anncMade a m) := by
  rw [anncRequest_eq, message, anncSet_of_named set]
  exact if_neg (not_or.2 ⟨tag, zones⟩)

end Named

/-! ### The checks in their order (R136) -/

section Annc
variable {s : State} {a : AnncArgs} {r : AnnRequest}

theorem annc_of_unnamed (unnamed : anncRequest a = none) : annc a s = refuse .range s := by rw [annc, unnamed]

variable (named : anncRequest a = some r)
include named

theorem annc_of_taken (taken : ∃ q ∈ s.bku.held, q.tag = r.tag) : annc a s = refuse .inUse s := by
  have held : s.bku.held.any (·.tag == r.tag) = true := by simpa using taken
  simp only [annc, named, if_pos held]

variable (fresh : ∀ q ∈ s.bku.held, q.tag ≠ r.tag)
include fresh

theorem annc_of_unready (unready : s.ast.ready r.message = false) : annc a s = refuse .state s := by
  have unheld : ¬s.bku.held.any (·.tag == r.tag) = true := by simpa using fresh
  simp only [annc, named, if_neg unheld, unready, Bool.not_false, if_true]

variable (ready : s.ast.ready r.message = true)
include ready

theorem annc_of_full (full : 16 ≤ s.bku.held.length) : annc a s = refuse .noRoom s := by
  have unheld : ¬s.bku.held.any (·.tag == r.tag) = true := by simpa using fresh
  simp only [annc, named, if_neg unheld, ready, Bool.not_true, Bool.false_eq_true, if_false, if_pos full]

theorem annc_of_room (room : s.bku.held.length < 16) : annc a s =
    let b := Bku.arbiter s.mask ⟨{ s.bku with queue := joinBehind s.bku.queue r }, []⟩
    okWith (s.withBku b)
      (changedFields [(2, r.priority != a.priority), (3, r.plays != a.plays)] ++ placeReport b.unit s.mask r) := by
  have unheld : ¬s.bku.held.any (·.tag == r.tag) = true := by simpa using fresh
  simp only [annc, named, if_neg unheld, ready, Bool.not_true, Bool.false_eq_true, if_false, if_neg (not_le.2 room)]
  rfl

end Annc

/-- Whether a player has the request of a tag. -/
def Player.carries (x : Player) (tag : Nat) : Bool := x.request.any fun q => q.tag == tag

/-- The place of the request of a tag in the queue. -/
def BreakIn.placeOf (b : BreakIn) (tag : Nat) : Option Nat := b.queue.findIdx? fun q => q.tag == tag

/-- Where a request stands, in bytes: its player, its place, and its mark (entry 13). -/
theorem placeReport_eq (b : BreakIn) (mask : Nat) (r : AnnRequest) : placeReport b mask r =
    (if b.bp0.carries r.tag then [1, 0] else if b.bp1.carries r.tag then [1, 1] else [0, 0]) ++
      (match b.placeOf r.tag with
        | some k => [1, BitVec.ofNat 8 k]
        | none => [0, 0]) ++
      [if (b.placeOf r.tag).isSome ∧ r.priority < mask then 1 else 0] := by
  have player : optionalField 1 (if b.bp0.carries r.tag then some 0 else if b.bp1.carries r.tag then some 1 else none) =
      if b.bp0.carries r.tag then [1, 0] else if b.bp1.carries r.tag then [1, 1] else [0, 0] := by
    cases b.bp0.carries r.tag
    · cases b.bp1.carries r.tag <;> rfl
    · rfl
  have place : optionalField 1 (b.placeOf r.tag) = (match b.placeOf r.tag with
      | some k => [1, BitVec.ofNat 8 k]
      | none => [0, 0]) := by
    cases b.placeOf r.tag with
    | none => rfl
    | some k => simp [optionalField, be]
  have mark : be 1 (yes ((b.placeOf r.tag).isSome && r.priority < mask)) =
      [if (b.placeOf r.tag).isSome ∧ r.priority < mask then 1 else 0] := by
    by_cases low : r.priority < mask <;> cases b.placeOf r.tag <;> simp [be, yes, low]
  rw [← player, ← place, ← mark]
  rfl

/-! ### The walk (R141, R143, R144) -/

section Walk
variable {mask : Nat} {q : AnnRequest} (rest : List AnnRequest) {blocked : GroupSet} {b : Bku}

theorem Bku.walk_of_low (low : q.priority < mask) : Bku.walk mask (q :: rest) blocked b =
    (q :: (Bku.walk mask rest blocked b).1, (Bku.walk mask rest blocked b).2) := by
  rw [Bku.walk, if_pos low]

theorem Bku.walk_of_start {id : PlayerId} (reached : mask ≤ q.priority) (clear : q.zones &&& blocked = 0)
    (idle : b.unit.idlePlayer = some id) :
    Bku.walk mask (q :: rest) blocked b = Bku.walk mask rest (blocked ||| q.zones) (b.start id q) := by
  rw [Bku.walk, if_neg (not_lt.2 reached), if_pos clear, idle]

theorem Bku.walk_of_met (reached : mask ≤ q.priority) (met : ¬q.zones &&& blocked = 0 ∨ b.unit.idlePlayer = none) :
    Bku.walk mask (q :: rest) blocked b =
      (q :: (Bku.walk mask rest (blocked ||| q.zones) { b with unit := b.unit.yielded q }).1,
        (Bku.walk mask rest (blocked ||| q.zones) { b with unit := b.unit.yielded q }).2) := by
  have waits : (if q.zones &&& blocked = 0 then b.unit.idlePlayer else none) = none := by
    split
    · next clear => exact met.resolve_left (not_not.2 clear)
    · rfl
  rw [Bku.walk, if_neg (not_lt.2 reached), waits]
  rfl

theorem BreakIn.idlePlayer_of_busy {u : BreakIn} (bp0 : u.bp0.state ≠ .idle) (bp1 : u.bp1.state ≠ .idle) : u.idlePlayer = none := by
  rw [BreakIn.idlePlayer, if_neg bp0, if_neg bp1]

theorem Player.yieldTo_eq (x : Player) (q : AnnRequest) : x.yieldTo q =
    if (x.state = .fadeIn ∨ x.state = .playing ∨ x.state = .gap) ∧
        (x.request.any fun o => decide (o.priority < q.priority ∧ o.zones &&& q.zones ≠ 0)) = true then
      { x with state := .fadeOut, intent := some .requeue } else x := by
  have running : x.running = true ↔ x.state = .fadeIn ∨ x.state = .playing ∨ x.state = .gap := by
    simp [Player.running, or_assoc]
  unfold Player.yieldTo
  split
  · next o request =>
    refine if_congr ?_ rfl rfl
    simp only [Bool.and_eq_true, running, bne_iff_ne, decide_eq_true_eq, request, Option.any_some, and_assoc]
  · next request => rw [request]; exact (if_neg fun yields => nomatch yields.2).symm

end Walk

end Sys2Proof.Machine

namespace Sys2Proof.Proofs
open Sys2Proof Sys2Proof.Machine

/-- Settles O26: one case per check of ANNC, in their order; the arbiter holds what it finds held, the new request among it; and its walk, case by
case. -/
theorem anncHoldsTheRequest : Obligations.AnncHoldsTheRequest := by
  refine ⟨fun s p tag a h => ⟨fun unnamed => exec_heard h (.annc a) (annc_of_unnamed (anncRequest_of_unnamed unnamed)), ?_⟩, ?_, ?_⟩
  · intro m law tagged message zones set
    have ok := ((breakInOk_iff s).1 law).1
    have named := anncRequest_of_named tagged message zones set
    refine ⟨fun taken => exec_heard h (.annc a) (annc_of_taken named taken),
      fun fresh unready => exec_heard h (.annc a) (annc_of_unready named fresh unready),
      fun fresh ready => ⟨fun full => exec_heard h (.annc a) (annc_of_full named fresh ready full.ge), ?_⟩⟩
    intro room r ahead mask b t
    have unit : ({ s.bku with queue := joinBehind s.bku.queue r } : BreakIn).Ok s.mask := ok.joinBehind fresh room
    obtain ⟨held, -, params, work⟩ := Bku.arbiter_keeps s.mask ⟨_, []⟩ unit.players.filled
    have starts := Bku.arbiter_starts_alone s.mask ⟨{ s.bku with queue := joinBehind s.bku.queue r }, []⟩
      (fun q hq => (joinBehind_perm s.bku.queue r).mem_iff.1 hq) rfl
    refine ⟨?_, held.trans (BreakIn.held_joined (joinBehind_perm _ _)), params, work, starts⟩
    have forced : ((anncMade a m).priority != a.priority) = decide (15 < a.priority) := min_changed a.priority 15
    have answer := annc_of_room named fresh ready room
    dsimp only at answer
    rw [placeReport_eq, forced] at answer
    exact exec_heard h (.annc a) answer
  · intro mask b
    simp only [← Player.zones_eq]
    rfl
  · intro mask q rest blocked b w clear started yields
    have yielded : yields = fun x => x.yieldTo q := funext fun x => (x.yieldTo_eq q).symm
    refine ⟨rfl, fun low => Bku.walk_of_low rest low, fun reached free idle => ?_, fun reached free busy idle => ?_,
      fun reached met => ?_⟩
    · exact Bku.walk_of_start rest reached free (if_pos idle)
    · exact Bku.walk_of_start rest reached free ((if_neg busy).trans (if_pos idle))
    · rw [yielded]
      exact Bku.walk_of_met rest reached (met.imp_right fun busy => BreakIn.idlePlayer_of_busy busy.1 busy.2)

end Sys2Proof.Proofs
end

section
/-! The work of a player in a slot, case by case (R147 to R152). -/
namespace Sys2Proof.Machine

/-! ### Fade (R147) -/

/-- The fade value after the fade step. -/
def Player.fadeAfter (step : Nat) (p : Player) : Nat :=
  match p.state with
  | .fadeIn => min 4096 (p.fade + step)
  | .fadeOut => p.fade - step
  | _ => p.fade

/-- The state after the fade step. -/
def Player.stateAfter (step : Nat) (p : Player) : PlayerState :=
  if p.state = .fadeIn ∧ 4096 ≤ p.fade + step then .playing else p.state

theorem Player.fadeStep_eq (step : Nat) (p : Player) :
    p.fadeStep step = { p with fade := p.fadeAfter step, state := p.stateAfter step } := by
  have stays : ∀ {state}, p.state = state → state ≠ .fadeIn → p.stateAfter step = state := fun here other =>
    (if_neg fun due => other (here.symm.trans due.1)).trans here
  cases state : p.state with
  | fadeIn =>
    have full : min 4096 (p.fade + step) = 4096 ↔ p.state = .fadeIn ∧ 4096 ≤ p.fade + step := by simp [state]
    simp only [Player.fadeStep, Player.fadeAfter, Player.stateAfter, state, full]
  | fadeOut => rw [stays state (by decide)]; simp only [Player.fadeStep, Player.fadeAfter, state]
  | idle => rw [stays state (by decide)]; simp only [Player.fadeStep, Player.fadeAfter, state]; rw [← state]
  | playing => rw [stays state (by decide)]; simp only [Player.fadeStep, Player.fadeAfter, state]; rw [← state]
  | gap => rw [stays state (by decide)]; simp only [Player.fadeStep, Player.fadeAfter, state]; rw [← state]

theorem Player.stateAfter_fadeOut (step : Nat) (p : Player) : p.stateAfter step = .fadeOut ↔ p.state = .fadeOut := by
  unfold Player.stateAfter
  split
  · next done => simp [done.1]
  · exact Iff.rfl

theorem Player.stateAfter_idle (step : Nat) (p : Player) : p.stateAfter step = .idle ↔ p.state = .idle := by
  unfold Player.stateAfter
  split
  · next done => simp [done.1]
  · exact Iff.rfl

/-! ### Audio and repetition (R148 to R150) -/

theorem PlayerState.sounding {state : PlayerState} (busy : state ≠ .idle) (noGap : state ≠ .gap) (staying : state ≠ .fadeOut) :
    state = .fadeIn ∨ state = .playing := by
  cases state <;> simp_all

/-- A player takes the next sample of a message: in FADE_IN and PLAYING, and in FADE_OUT while samples are left (R148). -/
def Player.readsOf (p : Player) (e : Option Message) : Bool :=
  p.state == .fadeIn || p.state == .playing || (p.state == .fadeOut && decide (p.progress < 512 * (e.map (·.count)).getD 0))

section Steps
variable {st : Store} {prm : VoxParams} {speech : Option (BitVec 16)} {p : Player} {r : AnnRequest}

theorem Player.storedAudio_eq (st : Store) (e : Message) (p : Player) : p.storedAudio st e =
    if p.readsOf (some e) then ⟨{ p with progress := p.progress + 1 }, (st.messageSample e p.progress).toInt * 256, true⟩
    else ⟨p, 0, false⟩ := by
  refine if_congr ?_ rfl rfl
  simp [Player.readsOf, Message.length, or_assoc]

theorem Player.sound_of_live (request : p.request = some r) (live : r.message = .live) :
    p.sound st prm speech = (if p.state = .gap then ⟨p, 0, false⟩ else p.liveAudio speech, prm.liveGain, 0) := by
  simp only [Player.sound, request, live]

theorem Player.sound_of_stored {m : MessageId} {e : Message} (request : p.request = some r) (stored : r.message = .stored m)
    (found : st.messages.get m = some e) : p.sound st prm speech = (p.storedAudio st e, e.gain, 512 * e.count) := by
  simp only [Player.sound, request, stored, found]
  rfl

theorem Player.sound_of_absent {m : MessageId} (request : p.request = some r) (stored : r.message = .stored m)
    (absent : st.messages.get m = none) : p.sound st prm speech = (⟨p, 0, false⟩, 0, 0) := by
  simp only [Player.sound, request, stored, absent]

/-- The player after the audio and repetition steps. -/
def Player.afterSound (st : Store) (prm : VoxParams) (speech : Option (BitVec 16)) (p : Player) : Player :=
  (p.sound st prm speech).1.repeated (p.sound st prm speech).2.2

theorem Audio.repeated_of_gap {x : Audio} (gap : x.player.state = .gap) (length : Nat) : x.repeated length = x.player.gapStep := by
  simp only [Audio.repeated, gap]

theorem Audio.repeated_of_fadeOut {x : Audio} (fadeOut : x.player.state = .fadeOut) (length : Nat) : x.repeated length = x.player := by
  simp only [Audio.repeated, fadeOut]

theorem Audio.repeated_of_untaken {x : Audio} (untaken : x.took = false) (sounding : x.player.state ≠ .gap) (length : Nat) :
    x.repeated length = x.player := by
  unfold Audio.repeated
  split
  · next gap => exact absurd gap sounding
  · rfl
  · exact if_neg fun due => absurd (untaken.symm.trans due.1) Bool.noConfusion
  · rfl

theorem Audio.repeated_of_taken {x : Audio} (request : x.player.request = some r) (taken : x.took = true) (sounding : x.player.state ≠ .gap)
    (staying : x.player.state ≠ .fadeOut) (length : Nat) :
    x.repeated length = if x.player.progress = length then x.player.playEnded r else x.player := by
  unfold Audio.repeated
  split
  · next gap => exact absurd gap sounding
  · next fadeOut => exact absurd fadeOut staying
  · next q named _ _ =>
    obtain rfl : r = q := Option.some.inj (request.symm.trans named)
    exact if_congr (and_iff_right taken) rfl rfl
  · next absent _ _ => exact nomatch request.symm.trans absent

/-- In a gap a player sounds nothing and counts the gap down. -/
theorem Player.afterSound_of_gap (gap : p.state = .gap) : p.afterSound st prm speech = p.gapStep := by
  have silent : (p.sound st prm speech).1.player = p := by
    unfold Player.sound
    split
    · rfl
    · split
      · rw [if_pos gap]
      · split
        · have unread : ∀ e, p.readsOf (some e) = false := fun e => by simp [Player.readsOf, gap]
          rw [Player.storedAudio_eq, unread]
          rfl
        · rfl
  rw [Player.afterSound, Audio.repeated_of_gap (by rw [silent]; exact gap), silent]

theorem Player.liveAudio_untaken (speech : Option (BitVec 16)) (p : Player) : (p.liveAudio speech).took = false := by
  unfold Player.liveAudio
  split
  · rfl
  · split
    · dsimp only
      split <;> rfl
    · rfl

theorem Player.afterSound_of_live (request : p.request = some r) (live : r.message = .live) (sounding : p.state ≠ .gap) :
    p.afterSound st prm speech = (p.liveAudio speech).player := by
  have heard : ¬(p.liveAudio speech).player.state = .gap := by
    unfold Player.liveAudio
    split
    · exact sounding
    · split
      · dsimp only
        split
        · exact PlayerState.noConfusion
        · exact sounding
      · exact sounding
  rw [Player.afterSound, Player.sound_of_live request live, if_neg sounding]
  exact Audio.repeated_of_untaken (p.liveAudio_untaken speech) heard 0

section Stored
variable {m : MessageId} {e : Message} (request : p.request = some r) (stored : r.message = .stored m)
  (found : st.messages.get m = some e)
include request stored found

theorem Player.afterSound_of_unread (sounding : p.state ≠ .gap) (unread : p.readsOf (some e) = false) :
    p.afterSound st prm speech = p := by
  rw [Player.afterSound, Player.sound_of_stored request stored found, Player.storedAudio_eq, unread]
  exact Audio.repeated_of_untaken rfl sounding _

theorem Player.afterSound_of_read (sounding : p.state ≠ .gap) (read : p.readsOf (some e) = true)
    (going : p.state = .fadeOut ∨ p.progress + 1 ≠ 512 * e.count) :
    p.afterSound st prm speech = { p with progress := p.progress + 1 } := by
  rw [Player.afterSound, Player.sound_of_stored request stored found, Player.storedAudio_eq, read, if_pos rfl]
  by_cases fadeOut : p.state = .fadeOut
  · exact Audio.repeated_of_fadeOut fadeOut _
  · exact (Audio.repeated_of_taken request rfl sounding fadeOut _).trans (if_neg (going.resolve_left fadeOut))

theorem Player.afterSound_of_last (sounding : p.state ≠ .gap) (busy : p.state ≠ .idle) (staying : p.state ≠ .fadeOut)
    (last : p.progress + 1 = 512 * e.count) :
    p.afterSound st prm speech = ({ p with progress := p.progress + 1 } : Player).playEnded r := by
  have read : p.readsOf (some e) = true := by
    obtain fadeIn | playing := PlayerState.sounding busy sounding staying
    · simp [Player.readsOf, fadeIn]
    · simp [Player.readsOf, playing]
  rw [Player.afterSound, Player.sound_of_stored request stored found, Player.storedAudio_eq, read, if_pos rfl]
  exact (Audio.repeated_of_taken request rfl sounding staying _).trans (if_pos last)

end Stored

/-! ### The end of a play (R150) -/

theorem Player.playEnded_of_gap (more : r.plays = 0 ∨ r.played.playsDone < r.plays) (gap : 0 < r.gap) :
    p.playEnded r = { p with request := some r.played, state := .gap, gapLeft := r.gap } :=
  (if_pos more).trans (if_pos gap)

theorem Player.playEnded_of_again (more : r.plays = 0 ∨ r.played.playsDone < r.plays) (gapless : r.gap = 0) :
    p.playEnded r = { p with request := some r.played, progress := 0 } :=
  (if_pos more).trans (if_neg (by rw [AnnRequest.played, gapless]; decide))

theorem Player.playEnded_of_done (counted : r.plays ≠ 0) (done : r.plays ≤ r.played.playsDone) :
    p.playEnded r = { p with request := some r.played, state := .fadeOut, intent := some (.finish .completed) } :=
  if_neg (not_or.2 ⟨counted, not_lt.2 done⟩)

/-! ### Speech (R149) -/

theorem Player.liveAudio_of_heard (heard : speech.isSome) : (p.liveAudio speech).player = { p with liveMiss := 0 } := by
  obtain ⟨w, rfl⟩ := Option.isSome_iff_exists.1 heard
  rfl

theorem Player.liveAudio_of_fadeOut (fadeOut : p.state = .fadeOut) : (p.liveAudio none).player = p := by
  simp [Player.liveAudio, fadeOut]

section Missed
variable (running : p.state = .fadeIn ∨ p.state = .playing)
include running

theorem Player.liveAudio_of_missed (few : p.liveMiss < 399) : (p.liveAudio none).player = { p with liveMiss := p.liveMiss + 1 } := by
  have short : ¬400 ≤ p.liveMiss + 1 := by omega
  simp only [Player.liveAudio, if_pos running, if_neg short]

theorem Player.liveAudio_of_lost (many : 399 ≤ p.liveMiss) : (p.liveAudio none).player =
    { p with state := .fadeOut, intent := some (.finish .sourceLost), liveMiss := 400 } := by
  have due : 400 ≤ p.liveMiss + 1 := by omega
  simp only [Player.liveAudio, if_pos running, if_pos due]
  rfl

end Missed

theorem Player.liveAudio_value (speech : Option (BitVec 16)) (p : Player) :
    (p.liveAudio speech).value = (speech.map (·.toInt)).getD 0 := by
  unfold Player.liveAudio
  split
  · rfl
  · split
    · dsimp only
      split <;> rfl
    · rfl

end Steps

/-! ### Level (R151) -/

/-- The level value of a player whose fade step is done. -/
def Player.levelOf (st : Store) (prm : VoxParams) (speech : Option (BitVec 16)) (p : Player) (r : AnnRequest) : Int :=
  let message := match r.message with
    | .stored m => st.messages.get m
    | .live => none
  let sample := message.map fun e => if p.readsOf message then (st.messageSample e p.progress).toInt * 256 else 0
  let live := if p.state = .gap then 0 else (speech.map (·.toInt)).getD 0
  if r.message = .live then levelValue live prm.liveGain else levelValue (sample.getD 0) ((message.map (·.gain)).getD 0)

theorem Player.levelOf_eq {st : Store} {prm : VoxParams} {speech : Option (BitVec 16)} {p : Player} {r : AnnRequest}
    (request : p.request = some r) :
    levelValue (p.sound st prm speech).1.value (p.sound st prm speech).2.1 = p.levelOf st prm speech r := by
  cases message : r.message with
  | live =>
    have value : (if p.state = .gap then (⟨p, 0, false⟩ : Audio) else p.liveAudio speech).value =
        if p.state = .gap then 0 else (speech.map (·.toInt)).getD 0 := by
      split
      · rfl
      · exact p.liveAudio_value speech
    rw [Player.sound_of_live request message, Player.levelOf, message, value]
    rfl
  | stored m =>
    cases found : st.messages.get m with
    | none =>
      rw [Player.sound_of_absent request message found]
      simp only [Player.levelOf, message, found, reduceCtorEq, if_false]
      rfl
    | some e =>
      have value : (p.storedAudio st e).value = if p.readsOf (some e) then (st.messageSample e p.progress).toInt * 256 else 0 := by
        rw [Player.storedAudio_eq]
        split <;> rfl
      rw [Player.sound_of_stored request message found, value]
      simp only [Player.levelOf, message, found, reduceCtorEq, if_false]
      rfl

/-! ### Synthesis (R152) -/

/-- The phase after `k` samples of the slot. -/
theorem phaseAt_eq (phase : BitVec 16) (a : Int) (d k : Nat) : phaseAt phase a d k = phase + BitVec.ofInt 16 (a * d * (k + 1 : Nat)) := by
  rw [phaseAt, Nat.cast_succ]

/-- A player's work, by what its parts are. -/
theorem Player.work_parts {st : Store} {prm : VoxParams} {speech : Option (BitVec 16)} {p : Player} {r : AnnRequest}
    (request : p.request = some r) :
    let f : Player := { p with fade := p.fadeAfter prm.fadeStep, state := p.stateAfter prm.fadeStep }
    let phase := fun k : Nat => p.phase + BitVec.ofInt 16 (f.levelOf st prm speech r * prm.deviation * k)
    let w := p.work st prm speech
    w.fade = f.fade ∧ w.ended = decide (p.state = .fadeOut ∧ f.fade = 0) ∧
    w.player = { f.afterSound st prm speech with phase := phase 24 } ∧
    ∀ k : Fin 24, w.block.get k = ⟨BitVec.ofInt 16 (nearest (cosTable ((phase (k.val + 1)).toNat / 64) * prm.amplitude) 4096),
      BitVec.ofInt 16 (nearest (sinTable ((phase (k.val + 1)).toNat / 64) * prm.amplitude) 4096)⟩ := by
  intro f phase w
  have faded : p.fadeStep prm.fadeStep = f := p.fadeStep_eq prm.fadeStep
  have level : levelValue (f.sound st prm speech).1.value (f.sound st prm speech).2.1 = f.levelOf st prm speech r :=
    Player.levelOf_eq request
  have worked := Player.work_eq st prm speech p
  dsimp only at worked
  rw [faded, level] at worked
  have phased : ∀ k, phaseAt f.phase (f.levelOf st prm speech r) prm.deviation k = phase (k + 1) := phaseAt_eq _ _ _
  refine ⟨by rw [show w = _ from worked], ?_, ?_, fun k => ?_⟩
  · rw [show w = _ from worked]
    exact decide_eq_decide.2 (and_congr_left' (p.stateAfter_fadeOut prm.fadeStep))
  · rw [show w = _ from worked, phased]
    rfl
  · rw [show w = _ from worked]
    simp only [synthBlock, Table.get_make, phased]
    rfl

end Sys2Proof.Machine
end

section
/-! Coverage (R153, R154), and the obligation on the work of a player, of the unit, and on lanes covered. -/
namespace Sys2Proof.Machine

/-- A player that is not IDLE covers a LIVE lane of its zones where the owner is BROADCAST, eligible and in its carrier set (R153). -/
theorem Player.covers_iff (ctb : Table Carrier 64) (p : Player) (g : GroupId) (y : Lane) : p.covers ctb g y = true ↔
    p.state ≠ .idle ∧ y.state = .live ∧ ∃ (r : AnnRequest) (c : CarrierId), p.request = some r ∧ y.owner = some c ∧
      r.zones.getLsbD g.val = true ∧ (ctb.get c).fields.kind = .broadcast ∧ (ctb.get c).fields.eligible = true ∧
      (r.carriers = .all ∨ ∃ set, r.carriers = .only set ∧ set.getLsbD c.val = true) := by
  have has : ∀ (set : CarrierSet) (c : CarrierId),
      set.has c = true ↔ set = .all ∨ ∃ bits, set = .only bits ∧ bits.getLsbD c.val = true := by
    intro set c
    cases set <;> simp [CarrierSet.has]
  unfold Player.covers
  split
  · next idle => simp [idle]
  · next r c request owner busy =>
    have inUse : p.state ≠ .idle := busy
    simp only [Bool.and_eq_true, decide_eq_true_eq, has, request, owner, Option.some.injEq]
    constructor
    · rintro ⟨⟨⟨⟨live, zone⟩, kind⟩, eligible⟩, set⟩
      exact ⟨inUse, live, r, c, rfl, rfl, zone, kind, eligible, set⟩
    · rintro ⟨-, live, r, c, rfl, rfl, zone, kind, eligible, set⟩
      exact ⟨⟨⟨⟨live, zone⟩, kind⟩, eligible⟩, set⟩
  · next _ unheld =>
    refine iff_of_false Bool.noConfusion ?_
    rintro ⟨-, -, r, c, request, owner, -⟩
    exact unheld r c request owner

/-- The mark of a lane: the lowest-numbered player that covers it (R154). -/
theorem markLanes_lane (ctb : Table Carrier 64) (b : BreakIn) (t : Table Group 8) (g : GroupId) (l : LaneId) :
    ((markLanes ctb b t).get g).lanes.get l =
      { (t.get g).lanes.get l with player := coverOf ctb b g ((t.get g).lanes.get l) } := by
  simp only [markLanes, Table.get_make]

end Sys2Proof.Machine

namespace Sys2Proof.Proofs
open Sys2Proof Sys2Proof.Machine

/-- Settles O30: the two rows take the last step of their counts; a player's work is its fade step, then the audio of what it plays, then repetition,
and its block the synthesis of the level; the unit's work is that of its players and the intents they end with; coverage is told by its conditions. -/
theorem gapEndAndSpeechLossMoveThePlayer : Obligations.GapEndAndSpeechLossMoveThePlayer := by
  refine ⟨fun s id awake => ?_, ?_, fun n mask st prm speech lanes b => ?_, fun b id r request => ?_, fun ctb b t g => ?_⟩
  · refine ⟨(eventCommand_awake awake _).trans (congrArg _ (gapEnd_eq id s)), fun r request live heard => ?_⟩
    exact (eventCommand_awake awake _).trans (congrArg _ (liveSpeechLoss_of_live request live heard))
  · intro st prm speech p r request busy w fade state message reads sample live level a phase base played
    obtain ⟨faded, ended, worked, synthesised⟩ := Player.work_parts (st := st) (prm := prm) (speech := speech) request
    let f : Player := { p with fade := p.fadeAfter prm.fadeStep, state := p.stateAfter prm.fadeStep }
    have player : ∀ {q}, f.afterSound st prm speech = q → w.player = { q with phase := phase 24 } := fun after => after ▸ worked
    have inUse : f.state ≠ .idle := mt (p.stateAfter_idle prm.fadeStep).1 busy
    refine ⟨faded, ended, synthesised, fun gap due => ?_, fun gap left => ?_, fun noGap isLive => ?_, fun m e noGap stored found => ?_⟩
    · exact player ((Player.afterSound_of_gap gap).trans (if_pos due))
    · exact player ((Player.afterSound_of_gap gap).trans (if_neg (not_le.2 left)))
    · have heard := Player.afterSound_of_live (st := st) (prm := prm) (speech := speech) (p := f) request isLive noGap
      refine ⟨fun said => ?_, fun silent fadeOut => ?_, fun silent staying few => ?_, fun silent staying many => ?_⟩
      · exact player (heard.trans (Player.liveAudio_of_heard said))
      · rw [silent, Player.liveAudio_of_fadeOut fadeOut] at heard
        exact player (silent ▸ heard)
      · rw [silent, Player.liveAudio_of_missed (PlayerState.sounding inUse noGap staying) few] at heard
        exact player (silent ▸ heard)
      · rw [silent, Player.liveAudio_of_lost (PlayerState.sounding inUse noGap staying) many] at heard
        exact player (silent ▸ heard)
    · have named : message = some e := by
        simp only [message, stored]
        exact found
      have reading : reads = f.readsOf (some e) := named ▸ (rfl : reads = f.readsOf message)
      refine ⟨fun unread => ?_, fun read going => ?_, fun staying last => ?_⟩
      · exact player (Player.afterSound_of_unread (p := f) request stored found noGap (reading.symm.trans unread))
      · exact player (Player.afterSound_of_read (p := f) request stored found noGap (reading.symm.trans read) going)
      · have ending := Player.afterSound_of_last (prm := prm) (speech := speech) (p := f) request stored found noGap inUse staying last
        refine ⟨fun more gap => ?_, fun more gapless => ?_, fun counted done => ?_⟩
        · exact player (ending.trans (Player.playEnded_of_gap more gap))
        · exact player (ending.trans (Player.playEnded_of_again more gapless))
        · exact player (ending.trans (Player.playEnded_of_done counted done))
  · exact Bku.slotWork_eq n mask st prm speech lanes b
  · exact ⟨fun o intent => Bku.finish_of_end request intent, fun intent => Bku.finish_of_requeue request intent⟩
  · refine ⟨by simp only [markLanes, Table.get_make], by simp only [markLanes, Table.get_make], fun l => ?_⟩
    intro y marked
    have lane := markLanes_lane ctb b t g l
    simp only [← Player.covers_iff]
    refine ⟨fun first => ?_, fun noFirst second => ?_, fun noFirst noSecond => ?_⟩
    · exact lane.trans (congrArg (fun x => { y with player := x }) (if_pos first))
    · exact lane.trans (congrArg (fun x => { y with player := x }) ((if_neg noFirst).trans (if_pos second)))
    · exact lane.trans (congrArg (fun x => { y with player := x }) ((if_neg noFirst).trans (if_neg noSecond)))

end Sys2Proof.Proofs
end

section
/-! The pages of the announcement store (R161): their numbering by block and index, the unit and its checks (R167, R168, R171), and what each operation
makes of page states and write pointers. -/
namespace Sys2Proof.Machine

/-! ### Numbering (R161) -/

theorem page_ext {p q : PageId} (block : blockOf p = blockOf q) (index : indexOf p = indexOf q) : p = q := by
  simp only [blockOf, indexOf, Fin.mk.injEq] at block index
  exact Fin.ext (by omega)

theorem blockOf_eq_iff {p : PageId} {b : BlockId} : blockOf p = b ↔ 64 * b.val ≤ p.val ∧ p.val < 64 * (b.val + 1) := by
  rw [Fin.ext_iff, blockOf]
  dsimp only
  omega

theorem Message.has_iff {m : Message} {p : PageId} : m.has p = true ↔ m.first ≤ p.val ∧ p.val < m.first + m.count := by
  simp only [Message.has, Bool.and_eq_true, decide_eq_true_eq]

/-! ### The write unit and the holder (R167) -/

section Unit
variable {t : Store} {b : BlockId}

theorem Store.erasing_iff : t.erasing b = true ↔ t.unit = .erasing b := by
  unfold Store.erasing
  split
  · next c unit => rw [unit, decide_eq_true_eq, WriteUnit.erasing.injEq]
  · next other => exact iff_of_false Bool.noConfusion (other b)

theorem Store.not_erasing_of_idle (idle : t.unit = .idle) : t.erasing b = false := by
  rw [Store.erasing, idle]

theorem Store.not_erasing_of_programming {l : PageLoad} (unit : t.unit = .programming l) : t.erasing b = false := by
  rw [Store.erasing, unit]

theorem Store.programmingIn_iff : t.programmingIn b = true ↔ ∃ l, t.unit = .programming l ∧ blockOf l.page = b := by
  unfold Store.programmingIn
  split
  · next l unit => simp only [unit, decide_eq_true_eq, WriteUnit.programming.injEq, exists_eq_left']
  · next other => exact iff_of_false Bool.noConfusion fun ⟨l, unit, _⟩ => other l unit

theorem Store.heldIn_iff : t.heldIn b = true ↔ ∃ q, t.holder = some q ∧ blockOf q.page = b := by
  simp only [Store.heldIn, Option.any_eq_true, beq_iff_eq]

end Unit

/-! ### The checks of R168 and R171, in their order -/

namespace Store

section Commit
variable {t : Store} {p : PageId}

theorem commitRefusal_of_barred (barred : (t.blocks.get (blockOf p)).guard.barsWrite = true) : t.commitRefusal p = some .barred :=
  if_pos barred

variable (unbarred : ¬(t.blocks.get (blockOf p)).guard.barsWrite = true)
include unbarred

theorem commitRefusal_of_erasing (erasing : t.erasing (blockOf p) = true) : t.commitRefusal p = some .busy :=
  (if_neg unbarred).trans (if_pos erasing)

variable (still : ¬t.erasing (blockOf p) = true)
include still

theorem commitRefusal_of_misplaced (misplaced : (indexOf p).val ≠ t.pointer p) : t.commitRefusal p = some .order :=
  (if_neg unbarred).trans ((if_neg still).trans (if_pos misplaced))

variable (placed : ¬(indexOf p).val ≠ t.pointer p)
include placed

theorem commitRefusal_of_full (full : t.unit ≠ .idle ∧ t.holder.isSome = true) : t.commitRefusal p = some .busy :=
  (if_neg unbarred).trans ((if_neg still).trans ((if_neg placed).trans (if_pos full)))

theorem commitRefusal_of_room (room : ¬(t.unit ≠ .idle ∧ t.holder.isSome = true)) : t.commitRefusal p = none :=
  (if_neg unbarred).trans ((if_neg still).trans ((if_neg placed).trans (if_neg room)))

end Commit

/-- What an accepted commit has passed. -/
theorem of_commitRefusal_none {t : Store} {p : PageId} (pass : t.commitRefusal p = none) :
    t.erasing (blockOf p) = false ∧ (indexOf p).val = t.pointer p := by
  have unbarred : ¬(t.blocks.get (blockOf p)).guard.barsWrite = true := fun barred =>
    nomatch pass.symm.trans (commitRefusal_of_barred barred)
  have still : ¬t.erasing (blockOf p) = true := fun erasing => nomatch pass.symm.trans (commitRefusal_of_erasing unbarred erasing)
  refine ⟨eq_false_of_ne_true still, not_not.1 fun misplaced => ?_⟩
  exact nomatch pass.symm.trans (commitRefusal_of_misplaced unbarred still misplaced)

section Erase
variable {t : Store} {b : BlockId}

theorem eraseRefusal_of_barred (barred : (t.blocks.get b).guard.barsErase = true) : t.eraseRefusal b = some .barred := if_pos barred

variable (unbarred : ¬(t.blocks.get b).guard.barsErase = true)
include unbarred

theorem eraseRefusal_of_inUse (inUse : t.blockInUse b = true) : t.eraseRefusal b = some .inUse :=
  (if_neg unbarred).trans (if_pos inUse)

variable (free : ¬t.blockInUse b = true)
include free

theorem eraseRefusal_of_busy (busy : t.unit ≠ .idle ∨ t.holder.isSome = true) : t.eraseRefusal b = some .busy :=
  (if_neg unbarred).trans ((if_neg free).trans (if_pos busy))

theorem eraseRefusal_of_idle (idle : ¬(t.unit ≠ .idle ∨ t.holder.isSome = true)) : t.eraseRefusal b = none :=
  (if_neg unbarred).trans ((if_neg free).trans (if_neg idle))

end Erase

/-- What an accepted erase has passed. -/
theorem of_eraseRefusal_none {t : Store} {b : BlockId} (pass : t.eraseRefusal b = none) :
    t.blockInUse b = false ∧ t.unit = .idle ∧ t.holder = none := by
  have unbarred : ¬(t.blocks.get b).guard.barsErase = true := fun barred => nomatch pass.symm.trans (eraseRefusal_of_barred barred)
  have free : ¬t.blockInUse b = true := fun inUse => nomatch pass.symm.trans (eraseRefusal_of_inUse unbarred inUse)
  have idle := not_or.1 fun busy => nomatch pass.symm.trans (eraseRefusal_of_busy unbarred free busy)
  exact ⟨eq_false_of_ne_true free, not_not.1 idle.1, Option.not_isSome_iff_eq_none.1 idle.2⟩

end Store

/-! ### A block record changed -/

section Blocks
variable (t : Store) (b : BlockId) (f : StoreBlock → StoreBlock) (p : PageId) (st : PageState) (q : PageId)

theorem Store.block_editBlock (c : BlockId) :
    (t.editBlock b f).blocks.get c = if b = c then f (t.blocks.get b) else t.blocks.get c := Table.get_edit _ _ _ _

theorem Store.pageState_editBlock :
    (t.editBlock b f).pageState q = if b = blockOf q then (f (t.blocks.get b)).pages.get (indexOf q) else t.pageState q := by
  rw [Store.pageState, Store.block_editBlock]
  split <;> rfl

theorem Store.pointer_editBlock :
    (t.editBlock b f).pointer q = if b = blockOf q then (f (t.blocks.get b)).writePointer else t.pointer q := by
  rw [Store.pointer, Store.block_editBlock]
  split <;> rfl

/-- A change of block records that leaves their pages leaves every page's state. -/
theorem Store.pageState_editBlock_of_pages {f : StoreBlock → StoreBlock} (same : ∀ x, (f x).pages = x.pages) :
    (t.editBlock b f).pageState q = t.pageState q := by
  rw [Store.pageState_editBlock, same]
  split
  · next block => rw [block, Store.pageState]
  · rfl

/-- A change of block records that leaves their pointers leaves every page's pointer. -/
theorem Store.pointer_editBlock_of_pointer {f : StoreBlock → StoreBlock} (same : ∀ x, (f x).writePointer = x.writePointer) :
    (t.editBlock b f).pointer q = t.pointer q := by
  rw [Store.pointer_editBlock, same]
  split
  · next block => rw [block, Store.pointer]
  · rfl

/-- One page set, seen from any page. -/
theorem Store.pageState_setPage : (t.setPage p st).pageState q = if p = q then st else t.pageState q := by
  have edited : (t.setPage p st).pageState q = _ := Store.pageState_editBlock t (blockOf p) _ q
  rw [edited]
  split
  · next block =>
    rw [Table.get_put]
    have index : indexOf p = indexOf q ↔ p = q := ⟨page_ext block, congrArg indexOf⟩
    simp only [index, Store.pageState, block]
  · next block => rw [if_neg (mt (congrArg blockOf) block)]

theorem Store.pointer_setPage : (t.setPage p st).pointer q = t.pointer q :=
  Store.pointer_editBlock_of_pointer t (blockOf p) q fun _ => rfl

theorem Store.pageState_setBlockPages : (t.setBlockPages b st).pageState q = if b = blockOf q then st else t.pageState q := by
  rw [Store.setBlockPages, Store.pageState_editBlock, Table.get_fill]

theorem Store.pointer_setBlockPages : (t.setBlockPages b st).pointer q = t.pointer q :=
  Store.pointer_editBlock_of_pointer t b q fun _ => rfl

end Blocks

/-! ### The ends of a program and of an erase (R169, R172) -/

/-- What a program leaves of its page (R169). -/
def pageAfterProgram : StoreResult → PageState
  | .pass => .programmed
  | .fail => .failed

/-- What an erase leaves of every page of its block (R172). -/
def pageAfterErase : StoreResult → PageState
  | .pass => .erased
  | .fail => .failed

/-- The write pointer that an erase leaves its block (R172). -/
def pointerAfterErase : StoreResult → Nat
  | .pass => 0
  | .fail => 64

section Ends
variable (t : Store) (l : PageLoad) (b : BlockId) (r : StoreResult) (q : PageId)

theorem Store.pageState_programEnd : (t.programEnd l r).pageState q = if l.page = q then pageAfterProgram r else t.pageState q := by
  cases r <;> exact Store.pageState_setPage t l.page _ q

theorem Store.pointer_programEnd : (t.programEnd l r).pointer q = t.pointer q := by
  cases r <;> exact Store.pointer_setPage t l.page _ q

theorem Store.pageState_eraseEnd : (t.eraseEnd b r).pageState q = if b = blockOf q then pageAfterErase r else t.pageState q := by
  cases r <;> exact (Store.pageState_editBlock t b _ q).trans (by rw [Table.get_fill]; rfl)

theorem Store.pointer_eraseEnd : (t.eraseEnd b r).pointer q = if b = blockOf q then pointerAfterErase r else t.pointer q := by
  cases r <;> exact Store.pointer_editBlock t b _ q

theorem Store.eraseEnd_holder : (t.eraseEnd b r).holder = t.holder := by cases r <;> rfl
theorem Store.eraseEnd_messages : (t.eraseEnd b r).messages = t.messages := by cases r <;> rfl
theorem Store.programEnd_holder : (t.programEnd l r).holder = t.holder := by cases r <;> rfl
theorem Store.programEnd_messages : (t.programEnd l r).messages = t.messages := by cases r <;> rfl

end Ends
end Sys2Proof.Machine
end

section
/-! Every way in which a step can change the announcement store. A law of the store is kept by every step once it is kept by each of these; the first
is the canonical form of the memory (entry 8). -/
namespace Sys2Proof.Machine

/-- What one part of a step makes of the store: nothing, or one of its own operations past the checks of its request. -/
inductive Store.Move : Store → Store → Prop
  | stays {t} : Move t t
  | buffered {t} (x : Option PageLoad) : Move t { t with buffer := x }
  | saves {t} (area saving : Option Snapshot) : Move t { t with settings := area, saving := saving }
  | committed {t} (l : PageLoad) (pass : t.commitRefusal l.page = none) : Move t (t.commit l)
  | programmed {t} (l : PageLoad) (r : StoreResult) (unit : t.unit = .programming l) :
    Move t ((t.programEnd l r).record (.program l.page r)).advance
  | eraseBegun {t} (b : BlockId) (pass : t.eraseRefusal b = none) : Move t (t.beginErase b)
  | erased {t} (b : BlockId) (r : StoreResult) (unit : t.unit = .erasing b) : Move t ((t.eraseEnd b r).record (.erase b r)).advance
  | guarded {t} (b : BlockId) (g : GuardState → GuardState) : Move t (t.editBlock b fun x => { x with guard := g x.guard })
  | defined {t} (m : MessageId) (a : MsgdefArgs) (pass : t.defineRefusal a = none) :
    Move t { t with messages := t.messages.put m (some ⟨a.first, a.count, a.gain⟩) }
  | emptied {t} (m : MessageId) : Move t { t with messages := t.messages.put m none }
  | reset {t} : Move t t.afterReset

theorem Store.Move.of_eq {t u : Store} (h : u = t) : t.Move u := h ▸ .stays

/-! ### Requests that leave the store -/

section Requests
variable (n : Nat) (s : State)

theorem carset_ast (a : CarsetArgs) : (carset a s).state.ast = s.ast := by
  unfold carset
  split
  · dsimp only
    split
    · split <;> rfl
    · rfl
  · rfl

theorem caron_ast : (caron n s).state.ast = s.ast := by
  unfold caron
  split
  · rfl
  · split <;> rfl

theorem caroff_ast : (caroff n s).state.ast = s.ast := by
  unfold caroff
  split
  · rfl
  · split <;> rfl

theorem carclr_ast : (carclr n s).state.ast = s.ast := by
  unfold carclr
  split
  · rfl
  · split <;> rfl

theorem trim_ast (g v : Nat) : (trim n g v s).state.ast = s.ast := by
  unfold trim
  split
  · dsimp only
    split
    · rfl
    · split <;> rfl
  · rfl

theorem grpset_ast (a : GrpsetArgs) : (grpset a s).state.ast = s.ast := by
  by_cases unnamed : 8 ≤ a.group ∨ codeForm a.form = none
  · rw [grpset_of_unnamed unnamed]; rfl
  · obtain ⟨near, form⟩ := not_or.1 unnamed
    obtain ⟨form, named⟩ := Option.ne_none_iff_exists'.1 form
    let g : GroupId := ⟨a.group, not_le.1 near⟩
    cases checks : grpsetRefusal s g a form with
    | some st => rw [grpset_of_refusal (g := g) rfl named checks]; rfl
    | none =>
      rw [grpset_of_pass (g := g) rfl named checks, okWith]
      dsimp only
      split <;> rfl

theorem sprst_ast : (sprst n s).state.ast = s.ast := by
  unfold sprst
  split
  · rfl
  · split <;> rfl

theorem incclr_ast : (incclr s).state.ast = s.ast := by
  unfold incclr
  split
  · rfl
  · exact changeLevels_ast _ _ _

theorem profset_ast (a : ProfsetArgs) : (profset a s).state.ast = s.ast := by
  unfold profset
  split
  · dsimp only
    split
    · exact incidentEvent_ast _ _ _
    · rfl
  · rfl

theorem annc_ast (a : AnncArgs) : (annc a s).state.ast = s.ast := by
  unfold annc
  split
  · rfl
  · repeat (split; · rfl)
    rfl

theorem ancan_ast : (ancan n s).state.ast = s.ast := by
  unfold ancan
  split
  · rfl
  · split <;> rfl

theorem trksel_ast : (trksel n s).state.ast = s.ast := by
  obtain kept | ⟨q, -, moved⟩ := trksel_cases n s
  · rw [kept]
  · rw [moved]

theorem restart_ast : (restart n s).state.ast = s.ast := by
  unfold restart
  split
  · rfl
  · split <;> rfl

end Requests

/-! ### Requests to the store -/

section Moves
variable (n : Nat) (s : State)

theorem pgopen_store : s.ast.Move (pgopen n s).state.ast := by
  unfold pgopen
  split
  · exact .stays
  · exact .buffered _

theorem pgdata_store (bs : List Byte) : s.ast.Move (pgdata n bs s).state.ast := by
  unfold pgdata
  split
  · exact .stays
  · split
    · exact .stays
    · split
      · exact .stays
      · exact .buffered _

theorem pgcommit_store : s.ast.Move (pgcommit s).state.ast := by
  unfold pgcommit
  split
  · exact .stays
  · next l _ =>
    split
    · exact .stays
    · next pass => exact .committed l pass

theorem blkerase_store : s.ast.Move (blkerase n s).state.ast := by
  unfold blkerase
  split
  · exact .stays
  · next b _ =>
    split
    · exact .stays
    · next pass => exact .eraseBegun b pass

theorem blkguard_store (bar : Nat) : s.ast.Move (blkguard n bar s).state.ast := by
  unfold blkguard
  split
  · exact .guarded _ GuardState.raiseErase
  · split
    · exact .stays
    · split
      · exact .stays
      · exact .guarded _ GuardState.raiseWrite
  · exact .stays

theorem msgdef_store (a : MsgdefArgs) : s.ast.Move (msgdef a s).state.ast := by
  unfold msgdef
  split
  · next m _ pass => exact .defined m a pass
  · exact .stays
  · exact .stays

theorem msgclr_store : s.ast.Move (msgclr n s).state.ast := by
  unfold msgclr
  split
  · exact .stays
  · split
    · exact .stays
    · exact .emptied _

theorem save_store : s.ast.Move (save s).state.ast := by
  unfold save
  split
  · exact .stays
  · exact .saves none (some s.snapshot)

end Moves

/-- Any request, answered. -/
theorem requestAct_store (v : State → State) (r : Request) (s : State) : s.ast.Move (requestAct v r s).state.ast := by
  cases r with
  | rdrec sel part => exact .of_eq (congrArg State.ast (rdrecOf_state (v s) sel part s))
  | carset a => exact .of_eq (carset_ast s a)
  | caron n => exact .of_eq (caron_ast n s)
  | caroff n => exact .of_eq (caroff_ast n s)
  | carclr n => exact .of_eq (carclr_ast n s)
  | trim n g x => exact .of_eq (trim_ast n s g x)
  | grpset a => exact .of_eq (grpset_ast s a)
  | sprst n => exact .of_eq (sprst_ast n s)
  | incset n => exact .of_eq (changeLevels_ast _ _ s)
  | incclr => exact .of_eq (incclr_ast s)
  | profset a => exact .of_eq (profset_ast s a)
  | annc a => exact .of_eq (annc_ast s a)
  | ancan n => exact .of_eq (ancan_ast n s)
  | voxset a => exact .stays
  | pgopen n => exact pgopen_store n s
  | pgdata off bs => exact pgdata_store off s bs
  | pgcommit => exact pgcommit_store s
  | blkerase n => exact blkerase_store n s
  | blkguard n bar => exact blkguard_store n s bar
  | msgdef a => exact msgdef_store s a
  | msgclr n => exact msgclr_store n s
  | trksel n => exact .of_eq (trksel_ast n s)
  | timset limit x => exact .stays
  | save => exact save_store s
  | restart n => exact .of_eq (restart_ast n s)
  | causeclr => exact .stays

/-! ### Events -/

section Events
variable (s : State)

theorem holdoverExpiry_ast : (holdoverExpiry s).ast = s.ast := by
  unfold holdoverExpiry
  split <;> rfl

theorem laneGuardExpiry_ast (g : GroupId) (l : LaneId) : (laneGuardExpiry g l s).ast = s.ast := by
  unfold laneGuardExpiry
  split <;> rfl

theorem overBudget_ast (g : GroupId) : (overBudget g s).ast = s.ast := by
  unfold overBudget
  dsimp only
  split <;> rfl

theorem missLimitReached_ast (g : GroupId) (k : Pos) (sd : Side) : (missLimitReached g k sd s).ast = s.ast := by
  unfold missLimitReached
  dsimp only
  split <;> rfl

theorem hangExpiry_ast (g : GroupId) (l : LaneId) (k : Pos) : (hangExpiry g l k s).ast = s.ast := by
  unfold hangExpiry
  dsimp only
  split <;> rfl

theorem fadeEnd_ast (id : PlayerId) : (fadeEnd id s).ast = s.ast := by
  unfold fadeEnd
  dsimp only
  split
  · split <;> rfl
  · split <;> rfl
  · rfl

theorem gapEnd_ast (id : PlayerId) : (gapEnd id s).ast = s.ast := by
  unfold gapEnd
  dsimp only
  split <;> rfl

theorem liveSpeechLoss_ast (id : PlayerId) : (liveSpeechLoss id s).ast = s.ast := by
  unfold liveSpeechLoss
  dsimp only
  split <;> rfl

theorem spanUplinkFrameArrival_ast (p : SpanId) (bs : List Byte) : (spanUplinkFrameArrival p bs s).ast = s.ast := by
  unfold spanUplinkFrameArrival
  split <;> rfl

theorem storeProgramCompletion_store (r : StoreResult) : s.ast.Move (storeProgramCompletion r s).ast := by
  unfold storeProgramCompletion
  split
  · next l unit => exact .programmed l r unit
  · exact .stays

theorem storeEraseCompletion_store (r : StoreResult) : s.ast.Move (storeEraseCompletion r s).ast := by
  unfold storeEraseCompletion
  split
  · next b unit => exact .erased b r unit
  · exact .stays

theorem settingsSaveCompletion_store (r : StoreResult) : s.ast.Move (settingsSaveCompletion r s).ast := by
  unfold settingsSaveCompletion
  split
  · exact .stays
  · exact .saves _ none

/-- The works of a slot read the store and leave it. -/
theorem slotWorked_ast (n : FrameNo) (ord : SlotOrder) : (slotWorked n ord s).ast = s.ast := by
  rw [slotWorked_eq]
  rfl

end Events

/-! ### Resets and start-up -/

section Resets
variable (s : State)

/-- A start-up loads settings and leaves the store (R205). -/
theorem startUpLoading_ast : (startUpLoading s).ast = s.ast := by
  unfold startUpLoading
  split <;> rfl

theorem leaveReset_ast : (leaveReset s).ast = s.ast := by
  unfold leaveReset
  split
  · rfl
  · exact startUpLoading_ast s

theorem resetInputRelease_ast : (resetInputRelease s).ast = s.ast := by
  unfold resetInputRelease
  split
  · exact leaveReset_ast _
  · rfl

theorem suppliesSteady_ast : (suppliesSteady s).ast = s.ast := by
  unfold suppliesSteady
  split
  · exact leaveReset_ast _
  · rfl

theorem restartNow_ast (f : RestartForm) : (restartNow f s).ast = s.ast.afterReset := by
  cases f with
  | keep => rfl
  | reload => exact startUpLoading_ast _

theorem lineReset_store : s.ast.Move (lineReset s).ast := by
  unfold lineReset
  split
  · exact .stays
  · exact .reset

end Resets

/-! ### The step -/

theorem StepPart.store_move {s t : State} (part : StepPart s t) : s.ast.Move t.ast := by
  cases part with
  | taken rest => exact .stays
  | requested v r => exact requestAct_store v r s
  | responded p x => exact .stays
  | refreshed => exact .stays
  | worked n ord => exact .of_eq (slotWorked_ast s n ord)
  | sampled n line => exact .of_eq (changeLevels_ast _ _ s)
  | completed n => exact .stays
  | restarted f => exact (restartNow_ast s f).symm ▸ .reset
  | holdoverExpiry => exact .of_eq (holdoverExpiry_ast s)
  | laneGuardExpiry g l => exact .of_eq (laneGuardExpiry_ast s g l)
  | overBudget g => exact .of_eq (overBudget_ast s g)
  | missLimitReached g k sd => exact .of_eq (missLimitReached_ast s g k sd)
  | hangExpiry g l k => exact .of_eq (hangExpiry_ast s g l k)
  | fadeEnd id => exact .of_eq (fadeEnd_ast s id)
  | gapEnd id => exact .of_eq (gapEnd_ast s id)
  | liveSpeechLoss id => exact .of_eq (liveSpeechLoss_ast s id)
  | trunkFrameArrival p bs => exact .stays
  | spanUplinkFrameArrival p bs => exact .of_eq (spanUplinkFrameArrival_ast s p bs)
  | storeProgramCompletion r => exact storeProgramCompletion_store s r
  | storeEraseCompletion r => exact storeEraseCompletion_store s r
  | settingsSaveCompletion r => exact settingsSaveCompletion_store s r
  | powerOn => exact .reset
  | lineReset => exact lineReset_store s
  | resetInputRelease => exact .of_eq (resetInputRelease_ast s)
  | suppliesSteady => exact .of_eq (suppliesSteady_ast s)

/-- A law of the store that every move keeps is kept by every step. -/
theorem keptByStep_of_store {law : Store → Prop} (move : ∀ {t u : Store}, t.Move u → law t → law u) : keptByStep fun s => law s.ast :=
  keptByStep_of_parts fun part hs => move part.store_move hs

/-! ### The memory (R163; entry 8) -/

section Memory
variable (t : Store) (b : BlockId) (r : StoreResult)

theorem Store.advance_memory : t.advance.memory = t.memory := by
  unfold Store.advance
  split <;> rfl

theorem Store.commit_memory (l : PageLoad) : (t.commit l).memory = t.memory := by
  unfold Store.commit
  dsimp only
  split <;> rfl

theorem Store.eraseEnd_memory : (t.eraseEnd b r).memory = t.memory := by cases r <;> rfl

theorem Store.afterReset_memory : t.afterReset.memory = t.memory := by
  have cut : t.cutShort.memory = t.memory := by
    unfold Store.cutShort
    split
    · rfl
    · rfl
    · exact Store.eraseEnd_memory t _ .fail
  have dropped : t.cutShort.dropHeld.memory = t.cutShort.memory := by
    unfold Store.dropHeld
    split <;> rfl
  exact dropped.trans cut

end Memory

/-- Only a page programmed and a block erased write to the memory, and a write and a clear keep its form. -/
theorem Store.Move.memory_wf {t u : Store} (move : t.Move u) (wf : t.memory.wf = true) : u.memory.wf = true := by
  cases move with
  | stays => exact wf
  | buffered x => exact wf
  | saves area saving => exact wf
  | committed l pass => rw [Store.commit_memory]; exact wf
  | programmed l r unit =>
    rw [Store.advance_memory]
    cases r with
    | pass => exact Memory.writeRun_wf wf
    | fail => exact wf
  | eraseBegun b pass => exact Memory.clear_wf wf
  | erased b r unit =>
    rw [Store.advance_memory]
    exact (Store.eraseEnd_memory t b r).symm ▸ wf
  | guarded b g => exact wf
  | defined m a pass => exact wf
  | emptied m => exact wf
  | reset => rw [Store.afterReset_memory]; exact wf

end Sys2Proof.Machine

namespace Sys2Proof.Proofs
open Sys2Proof Sys2Proof.Machine

/-- Settles O49: the canonical form is a law of the store's memory, and every move of the store keeps it. -/
theorem stepKeepsMemoryCanonical : Obligations.StepKeepsMemoryCanonical :=
  keptByStep_of_store (law := fun t => t.memory.wf = true) Store.Move.memory_wf

end Sys2Proof.Proofs
end

section
/-! The law of the announcement store (R162, R167, R175): pages, pointers and messages on one side, the write unit and its holder on the other, and
that every move of the store keeps it. -/
namespace Sys2Proof.Machine

/-! ### The law -/

/-- A message of a READY entry: its run lies in the store and every page of it is PROGRAMMED (R175). -/
structure Store.Ready (t : Store) (e : Message) : Prop where
  pos : 1 ≤ e.count
  within : e.first + e.count ≤ 2048
  programmed : ∀ p : PageId, e.has p = true → t.pageState p = .programmed

/-- Pages, pointers, messages and the held page agree (R162, R167, R175). Of the unit this reads only which block it erases. -/
structure Store.PagesOk (t : Store) : Prop where
  ready : ∀ (m : MessageId) (e : Message), t.messages.get m = some e → t.Ready e
  counted : ∀ b : BlockId, (t.blocks.get b).writePointer ≤ 64
  blank : ∀ p : PageId, t.pointer p ≤ (indexOf p).val → t.pageState p = .erased ∨ t.erasing (blockOf p) = true
  held : ∀ q, t.holder = some q →
    t.pageState q.page = .erased ∧ t.pointer q.page = (indexOf q.page).val + 1 ∧ t.erasing (blockOf q.page) = false

/-- The unit's own page or block is in the state of its work, and nothing is held for an IDLE unit (R167). -/
structure Store.UnitOk (t : Store) : Prop where
  programming : ∀ l, t.unit = .programming l → t.pageState l.page = .programming ∧ (indexOf l.page).val < t.pointer l.page
  erasing : ∀ p : PageId, t.erasing (blockOf p) = true → t.pageState p = .erasing
  busy : ∀ q, t.holder = some q → t.unit ≠ .idle

/-- The law of the store. -/
structure Store.Ok (t : Store) : Prop where
  pages : t.PagesOk
  unit : t.UnitOk

theorem storeOk_iff (s : State) : s.storeOk ↔ s.ast.Ok := by
  constructor
  · rintro ⟨ready, counted, blank, programming, erasing, holder⟩
    refine ⟨⟨fun m e entry => ?_, counted, blank, fun q held => (holder q held).2⟩, programming, erasing, fun q held => (holder q held).1⟩
    obtain ⟨pos, within, programmed⟩ := ready m e entry
    exact ⟨pos, within, programmed⟩
  · rintro ⟨pages, unit⟩
    refine ⟨fun m e entry => ?_, pages.counted, pages.blank, unit.programming, unit.erasing,
      fun q held => ⟨unit.busy q held, pages.held q held⟩⟩
    obtain ⟨pos, within, programmed⟩ := pages.ready m e entry
    exact ⟨pos, within, programmed⟩

namespace Store
variable {t u : Store}

/-! ### What keeps the two sides -/

/-- A READY message stays READY while its PROGRAMMED pages do. -/
theorem Ready.mono {e : Message} (h : t.Ready e) (kept : ∀ p, t.pageState p = .programmed → u.pageState p = .programmed) : u.Ready e :=
  ⟨h.pos, h.within, fun p has => kept p (h.programmed p has)⟩

/-- The law reads page states, pointers, messages, unit and holder. -/
theorem Ok.of_same (ok : t.Ok) (pages : ∀ p, u.pageState p = t.pageState p)
    (pointers : ∀ b, (u.blocks.get b).writePointer = (t.blocks.get b).writePointer)
    (messages : u.messages = t.messages) (unit : u.unit = t.unit) (holder : u.holder = t.holder) : u.Ok := by
  have erasing : ∀ b, u.erasing b = t.erasing b := fun b => by rw [Store.erasing, unit, ← Store.erasing]
  have pointer : ∀ p, u.pointer p = t.pointer p := fun p => pointers _
  constructor
  · constructor
    · exact fun m e entry => (ok.pages.ready m e (messages ▸ entry)).mono fun p h => (pages p).trans h
    · exact fun b => (pointers b).le.trans (ok.pages.counted b)
    · intro p high
      rw [pages, erasing]
      exact ok.pages.blank p (pointer p ▸ high)
    · intro q held
      rw [pages, pointer, erasing]
      exact ok.pages.held q (holder ▸ held)
  · constructor
    · intro l programming
      rw [pages, pointer]
      exact ok.unit.programming l (unit ▸ programming)
    · intro p h
      rw [pages]
      exact ok.unit.erasing p (erasing _ ▸ h)
    · exact fun q held => unit ▸ ok.unit.busy q (holder ▸ held)

theorem counted_editBlock {b : BlockId} {f : StoreBlock → StoreBlock} (counted : ∀ c : BlockId, (t.blocks.get c).writePointer ≤ 64)
    (edited : (f (t.blocks.get b)).writePointer ≤ 64) (c : BlockId) : ((t.editBlock b f).blocks.get c).writePointer ≤ 64 := by
  rw [block_editBlock]
  split
  · exact edited
  · exact counted c

/-- Pages of a store whose unit erases nothing. -/
theorem PagesOk.blank_erased (h : t.PagesOk) {p : PageId} (still : t.erasing (blockOf p) = false) (high : t.pointer p ≤ (indexOf p).val) :
    t.pageState p = .erased :=
  (h.blank p high).resolve_right (still ▸ Bool.noConfusion)

/-- An IDLE unit with nothing held asks nothing of the pages. -/
theorem PagesOk.ok_of_idle (h : t.PagesOk) (idle : t.unit = .idle) (empty : t.holder = none) : t.Ok := by
  refine ⟨h, fun l programming => ?_, fun p erasing => ?_, fun q held => ?_⟩
  · exact absurd (idle.symm.trans programming) nofun
  · exact absurd (idle.symm.trans (erasing_iff.1 erasing)) nofun
  · exact absurd (empty.symm.trans held) nofun

/-! ### The unit takes a page (R168, R169, R172) -/

/-- A held page taken by a unit that has nothing to do. -/
theorem PagesOk.program {q : PageLoad} (h : ({ t with unit := .idle, holder := some q } : Store).PagesOk) (empty : t.holder = none) :
    (t.program q).Ok := by
  obtain ⟨erased, last, -⟩ := h.held q rfl
  have pages : ∀ p, (t.program q).pageState p = if q.page = p then .programming else t.pageState p := t.pageState_setPage q.page .programming
  have pointer : ∀ p, (t.program q).pointer p = t.pointer p := t.pointer_setPage q.page .programming
  have others : ∀ p, t.pageState p ≠ .erased → (t.program q).pageState p = t.pageState p := by
    intro p written
    rw [pages, if_neg]
    rintro rfl
    exact written erased
  constructor
  · constructor
    · intro m e entry
      refine Ready.mono (t := t) ⟨(h.ready m e entry).pos, (h.ready m e entry).within, (h.ready m e entry).programmed⟩ fun p state => ?_
      rw [others p (state ▸ nofun), state]
    · exact counted_editBlock h.counted (h.counted _)
    · intro p high
      rw [pointer] at high
      have apart : q.page ≠ p := by
        rintro rfl
        exact absurd (last.symm.trans_le high) (Nat.not_succ_le_self _)
      rw [pages, if_neg apart]
      exact .inl (h.blank_erased rfl high)
    · exact fun x held => absurd (empty.symm.trans held) nofun
  · constructor
    · rintro l programming
      cases programming
      rw [pages, if_pos rfl, pointer]
      exact ⟨rfl, (Nat.lt_succ_self _).trans_eq last.symm⟩
    · exact fun p erasing => absurd (erasing_iff.1 erasing) nofun
    · exact fun x held => absurd (empty.symm.trans held) nofun

/-- The unit, its work ended, takes the held page or becomes IDLE. -/
theorem PagesOk.advance (h : ({ t with unit := .idle } : Store).PagesOk) : t.advance.Ok := by
  unfold Store.advance
  split
  · next q held =>
    have same : ({ t with unit := .idle } : Store) = { t with unit := .idle, holder := some q } := by rw [← held]
    exact PagesOk.program (t := { t with holder := none }) (same ▸ h) rfl
  · next empty => exact h.ok_of_idle rfl empty

/-! ### Commits (R168) -/

/-- The page of an accepted commit, counted and held for the unit. -/
def hold (t : Store) (l : PageLoad) : Store :=
  { t.editBlock (blockOf l.page) fun b => { b with writePointer := b.writePointer + 1 } with buffer := none, holder := some l }

theorem pageState_hold (l : PageLoad) (p : PageId) : (t.hold l).pageState p = t.pageState p :=
  pageState_editBlock_of_pages t (blockOf l.page) p fun _ => rfl

theorem pointer_hold (l : PageLoad) (p : PageId) :
    (t.hold l).pointer p = if blockOf l.page = blockOf p then t.pointer l.page + 1 else t.pointer p :=
  pointer_editBlock t (blockOf l.page) _ p

/-- Counting the page at the write pointer leaves every page from the new pointer on blank. -/
theorem PagesOk.hold (h : t.PagesOk) {l : PageLoad} (pass : t.commitRefusal l.page = none) : (t.hold l).PagesOk := by
  obtain ⟨still, placed⟩ := of_commitRefusal_none pass
  constructor
  · exact fun m e entry => (h.ready m e entry).mono fun p state => (pageState_hold l p).trans state
  · have room : t.pointer l.page + 1 ≤ 64 := placed ▸ (indexOf l.page).isLt
    exact counted_editBlock h.counted room
  · intro p high
    rw [pageState_hold]
    refine h.blank p ?_
    rw [pointer_hold] at high
    split at high
    · next block =>
      have pointer : t.pointer p = t.pointer l.page := by rw [pointer, pointer, block]
      omega
    · exact high
  · intro q held
    cases held
    rw [pageState_hold, pointer_hold, if_pos rfl, placed]
    exact ⟨h.blank_erased still placed.ge, rfl, still⟩

theorem commit_of_idle (l : PageLoad) (idle : t.unit = .idle) :
    t.commit l = ({ t.hold l with holder := t.holder } : Store).program l := if_pos idle

theorem commit_of_busy (l : PageLoad) (busy : t.unit ≠ .idle) : t.commit l = t.hold l := if_neg busy

theorem Ok.commit (ok : t.Ok) {l : PageLoad} (pass : t.commitRefusal l.page = none) : (t.commit l).Ok := by
  have held := ok.pages.hold pass
  by_cases idle : t.unit = .idle
  · have empty : t.holder = none := Option.eq_none_iff_forall_ne_some.2 fun q h => ok.unit.busy q h idle
    have same : ({ t.hold l with unit := .idle, holder := some l } : Store) = t.hold l := by rw [← idle]; rfl
    rw [commit_of_idle l idle]
    exact PagesOk.program (t := { t.hold l with holder := t.holder }) (same ▸ held) empty
  · rw [commit_of_busy l idle]
    refine ⟨held, fun x programming => ?_, fun p erasing => ?_, fun q _ => idle⟩
    · obtain ⟨state, below⟩ := ok.unit.programming x programming
      refine ⟨(pageState_hold l x.page).trans state, below.trans_le ?_⟩
      rw [pointer_hold]
      split
      · next block =>
        have pointer : t.pointer x.page = t.pointer l.page := by rw [pointer, pointer, block]
        omega
      · exact le_rfl
    · exact (pageState_hold l p).trans (ok.unit.erasing p erasing)

/-! ### The end of a program and of an erase (R169, R172) -/

theorem PagesOk.programEnd (h : t.PagesOk) {l : PageLoad} (r : StoreResult) (still : ∀ b, t.erasing b = false)
    (state : t.pageState l.page = .programming) (below : (indexOf l.page).val < t.pointer l.page) :
    ({ t.programEnd l r with unit := .idle } : Store).PagesOk := by
  have pages : ∀ p, l.page ≠ p → (t.programEnd l r).pageState p = t.pageState p := fun p other =>
    (pageState_programEnd t l r p).trans (if_neg other)
  have pointer := pointer_programEnd t l r
  constructor
  · intro m e entry
    rw [programEnd_messages] at entry
    refine (h.ready m e entry).mono fun p programmed => (pages p ?_).trans programmed
    rintro rfl
    exact absurd (state.symm.trans programmed) nofun
  · have counted := fun f => counted_editBlock (b := blockOf l.page) (f := f) h.counted
    cases r <;> exact counted _ (h.counted _)
  · intro p high
    have high : t.pointer p ≤ (indexOf p).val := (pointer p).symm.trans_le high
    refine .inl ((pages p ?_).trans (h.blank_erased (still _) high))
    rintro rfl
    exact below.not_ge high
  · intro q held
    obtain ⟨erased, last, -⟩ := h.held q ((programEnd_holder t l r).symm.trans held)
    refine ⟨(pages q.page fun same => ?_).trans erased, (pointer q.page).trans last, rfl⟩
    exact absurd (state.symm.trans ((congrArg t.pageState same).trans erased)) nofun

theorem PagesOk.eraseEnd (h : t.PagesOk) {b : BlockId} (r : StoreResult) (unit : t.unit = .erasing b)
    (erasing : ∀ p : PageId, t.erasing (blockOf p) = true → t.pageState p = .erasing) :
    ({ t.eraseEnd b r with unit := .idle } : Store).PagesOk := by
  have inBlock : ∀ p : PageId, b = blockOf p → t.pageState p = .erasing := fun p block => erasing p (erasing_iff.2 (block ▸ unit))
  have pages := pageState_eraseEnd t b r
  have pointer := pointer_eraseEnd t b r
  constructor
  · intro m e entry
    rw [eraseEnd_messages] at entry
    refine (h.ready m e entry).mono fun p programmed => (pages p).trans ((if_neg fun block => ?_).trans programmed)
    exact absurd ((inBlock p block).symm.trans programmed) nofun
  · cases r
    · exact counted_editBlock h.counted (Nat.zero_le _)
    · exact counted_editBlock h.counted le_rfl
  · intro p high
    have high : (t.eraseEnd b r).pointer p ≤ (indexOf p).val := high
    refine .inl ((pages p).trans ?_)
    rw [pointer] at high
    split at high
    · next block =>
      rw [if_pos block]
      cases r with
      | pass => rfl
      | fail => exact absurd high (indexOf p).isLt.not_ge
    · next other =>
      rw [if_neg other]
      refine h.blank_erased (eq_false_of_ne_true fun erasing => other ?_) high
      exact WriteUnit.erasing.inj (unit.symm.trans (erasing_iff.1 erasing))
  · intro q held
    obtain ⟨erased, last, still⟩ := h.held q ((eraseEnd_holder t b r).symm.trans held)
    have other : b ≠ blockOf q.page := fun block => absurd ((inBlock _ block).symm.trans erased) nofun
    exact ⟨((pages q.page).trans (if_neg other)).trans erased, ((pointer q.page).trans (if_neg other)).trans last, rfl⟩

theorem Ok.programEnd (ok : t.Ok) {l : PageLoad} (r : StoreResult) (unit : t.unit = .programming l) :
    ({ t.programEnd l r with unit := .idle } : Store).PagesOk :=
  let ⟨state, below⟩ := ok.unit.programming l unit
  ok.pages.programEnd r (fun _ => not_erasing_of_programming unit) state below

theorem Ok.eraseEnd (ok : t.Ok) {b : BlockId} (r : StoreResult) (unit : t.unit = .erasing b) :
    ({ t.eraseEnd b r with unit := .idle } : Store).PagesOk := ok.pages.eraseEnd r unit ok.unit.erasing

/-- The law of the pages does not read the result history. -/
theorem PagesOk.record (h : ({ t with unit := .idle } : Store).PagesOk) (x : HistoryResult) :
    ({ t.record x with unit := .idle } : Store).PagesOk :=
  ⟨fun m e entry => ⟨(h.ready m e entry).pos, (h.ready m e entry).within, (h.ready m e entry).programmed⟩, h.counted, h.blank, h.held⟩

/-! ### An erase begun (R171) -/

theorem blockInUse_iff {b : BlockId} :
    t.blockInUse b = true ↔ ∃ m e, t.messages.get m = some e ∧ e.first < 64 * (b.val + 1) ∧ 64 * b.val < e.first + e.count := by
  simp only [blockInUse, List.any_eq_true, List.mem_finRange, true_and]
  refine exists_congr fun m => ?_
  cases t.messages.get m with
  | none => simp
  | some e => simp

/-- No READY message has a page in a block that is not in use (R171). -/
theorem not_has_of_not_inUse {b : BlockId} {m : MessageId} {e : Message} {p : PageId} (free : t.blockInUse b = false)
    (entry : t.messages.get m = some e) (has : e.has p = true) : b ≠ blockOf p := by
  intro block
  obtain ⟨low, high⟩ := blockOf_eq_iff.1 block.symm
  obtain ⟨first, last⟩ := Message.has_iff.1 has
  exact Bool.eq_false_iff.1 free (blockInUse_iff.2 ⟨m, e, entry, by omega, by omega⟩)

theorem Ok.beginErase (ok : t.Ok) {b : BlockId} (pass : t.eraseRefusal b = none) : (t.beginErase b).Ok := by
  obtain ⟨free, idle, empty⟩ := of_eraseRefusal_none pass
  have pages : ∀ p, (t.beginErase b).pageState p = if b = blockOf p then .erasing else t.pageState p := t.pageState_setBlockPages b .erasing
  have pointer : ∀ p, (t.beginErase b).pointer p = t.pointer p := t.pointer_setBlockPages b .erasing
  have erasing : ∀ c, (t.beginErase b).erasing c = true ↔ b = c := fun c => erasing_iff.trans ⟨WriteUnit.erasing.inj, congrArg _⟩
  constructor
  · constructor
    · intro m e entry
      obtain ⟨pos, within, programmed⟩ := ok.pages.ready m e entry
      exact ⟨pos, within, fun p has => ((pages p).trans (if_neg (not_has_of_not_inUse free entry has))).trans (programmed p has)⟩
    · exact counted_editBlock ok.pages.counted (ok.pages.counted b)
    · intro p high
      rw [erasing, pages]
      by_cases block : b = blockOf p
      · exact .inr block
      · rw [if_neg block]
        exact .inl (ok.pages.blank_erased (not_erasing_of_idle idle) ((pointer p).symm.trans_le high))
    · exact fun q held => absurd (empty.symm.trans held) nofun
  · constructor
    · exact fun l programming => absurd programming nofun
    · intro p h
      rw [pages, if_pos ((erasing _).1 h)]
    · exact fun q held => absurd (empty.symm.trans held) nofun

/-! ### The message directory (R175, R176) -/

theorem runProgrammed_iff {e : Message} (within : e.first + e.count ≤ 2048) :
    t.runProgrammed e = true ↔ ∀ p : PageId, e.has p = true → t.pageState p = .programmed := by
  simp only [runProgrammed, List.all_eq_true, List.mem_range, Message.has_iff]
  constructor
  · rintro run p ⟨first, last⟩
    have programmed := run (p.val - e.first) (by omega)
    rw [show e.first + (p.val - e.first) = p.val by omega, index_val] at programmed
    exact of_decide_eq_true programmed
  · intro run k inRun
    have programmed := run ⟨e.first + k, by omega⟩ ⟨Nat.le_add_right _ _, Nat.add_lt_add_left inRun _⟩
    rw [show index 2048 (e.first + k) = some ⟨e.first + k, by omega⟩ from index_val (k := 2048) ⟨e.first + k, by omega⟩]
    exact decide_eq_true programmed

/-- A message that R175 lets through is READY over PROGRAMMED pages. -/
theorem ready_of_defined {a : MsgdefArgs} (pass : t.defineRefusal a = none) : t.Ready ⟨a.first, a.count, a.gain⟩ := by
  unfold defineRefusal at pass
  split at pass
  · cases pass
  · split_ifs at pass with numbers inUse long blank
    have within : a.first + a.count ≤ 2048 := not_lt.1 long
    have run : t.runProgrammed ⟨a.first, a.count, a.gain⟩ = true := by simpa using blank
    exact ⟨Nat.pos_of_ne_zero fun none => numbers (.inr (.inl none)), within, (runProgrammed_iff within).1 run⟩

theorem Ok.putMessage (ok : t.Ok) (m : MessageId) (x : Option Message) (ready : ∀ e, x = some e → t.Ready e) :
    ({ t with messages := t.messages.put m x } : Store).Ok := by
  have entries : ∀ n e, (t.messages.put m x).get n = some e → t.Ready e := by
    intro n e entry
    rw [Table.get_put] at entry
    split at entry
    · exact ready e entry
    · exact ok.pages.ready n e entry
  refine ⟨⟨fun n e entry => ?_, ok.pages.counted, ok.pages.blank, ok.pages.held⟩,
    ⟨ok.unit.programming, ok.unit.erasing, ok.unit.busy⟩⟩
  exact (entries n e entry).mono fun p state => state

/-! ### A reset (R180) -/

/-- The program or erase under way is cut short as one that failed. -/
theorem Ok.cutShort (ok : t.Ok) : ({ t.cutShort with unit := .idle } : Store).PagesOk := by
  unfold Store.cutShort
  split
  · next idle =>
    have same : ({ t with unit := .idle } : Store) = t := by rw [← idle]
    exact same.symm ▸ ok.pages
  · next l unit => exact ok.programEnd .fail unit
  · next b unit => exact ok.eraseEnd .fail unit

/-- The held page was the last one counted, and is not counted any more. -/
theorem PagesOk.dropHeld (h : ({ t with unit := .idle } : Store).PagesOk) :
    ({ t.dropHeld with buffer := none, unit := .idle, holder := none, last := none, previous := none, saving := none } : Store).Ok := by
  unfold Store.dropHeld
  split
  · next q held =>
    obtain ⟨erased, last, -⟩ := h.held q held
    have pages : ∀ p, (t.editBlock (blockOf q.page) fun b => { b with writePointer := (indexOf q.page).val }).pageState p = t.pageState p :=
      fun p => pageState_editBlock_of_pages t (blockOf q.page) p fun _ => rfl
    refine PagesOk.ok_of_idle ⟨fun m e entry => ?_, ?_, fun p high => .inl ((pages p).trans ?_), nofun⟩ rfl rfl
    · exact (h.ready m e entry).mono fun p state => (pages p).trans state
    · exact counted_editBlock h.counted (indexOf q.page).isLt.le
    · have high : _ ≤ (indexOf p).val := (pointer_editBlock t (blockOf q.page) _ p).symm.trans_le high
      split at high
      · next block =>
        have pointer : t.pointer p = (indexOf q.page).val + 1 := last ▸ by rw [pointer, ← block]; rfl
        obtain below | same := Nat.lt_or_eq_of_le high
        · exact h.blank_erased rfl (pointer.trans_le below)
        · exact page_ext block (Fin.ext same) ▸ erased
      · exact h.blank_erased rfl high
  · refine PagesOk.ok_of_idle ⟨fun m e entry => ?_, h.counted, h.blank, nofun⟩ rfl rfl
    exact (h.ready m e entry).mono fun p state => state

/-! ### The law, move by move -/

theorem Move.ok (move : t.Move u) (ok : t.Ok) : u.Ok := by
  cases move with
  | stays => exact ok
  | buffered x => exact ok.of_same (fun _ => rfl) (fun _ => rfl) rfl rfl rfl
  | saves area saving => exact ok.of_same (fun _ => rfl) (fun _ => rfl) rfl rfl rfl
  | committed l pass => exact ok.commit pass
  | programmed l r unit => exact ((ok.programEnd r unit).record _).advance
  | eraseBegun b pass => exact ok.beginErase pass
  | erased b r unit => exact ((ok.eraseEnd r unit).record _).advance
  | guarded b g =>
    refine ok.of_same (fun p => pageState_editBlock_of_pages t b p fun _ => rfl) (fun c => ?_) rfl rfl rfl
    rw [block_editBlock]
    split
    · next same => rw [same]
    · rfl
  | defined m a pass => exact ok.putMessage m _ fun e entry => Option.some.inj entry ▸ ready_of_defined pass
  | emptied m => exact ok.putMessage m none nofun
  | reset => exact ok.cutShort.dropHeld

end Store
end Sys2Proof.Machine

namespace Sys2Proof.Proofs
open Sys2Proof Sys2Proof.Machine

/-- Settles O59: a commit counts the blank page at the pointer, an erase begins where no message stands, an end leaves a unit that may take the held
page, and a reset cuts the unit's work short as a failed one and takes the held page out of the count. -/
theorem stepKeepsStore : Obligations.StepKeepsStore := by
  have kept := keptByStep_of_store (law := Store.Ok) Store.Move.ok
  exact fun s t hs h => (storeOk_iff t).2 (kept s t ((storeOk_iff s).1 hs) h)

end Sys2Proof.Proofs
end

section
/-! PGOPEN, PGDATA and PGCOMMIT: what each answers, case by case (R165, R166, R168). -/
namespace Sys2Proof.Machine

variable {s : State}

/-! ### Loading a page (R165, R166) -/

theorem pgopen_of_far {n : Nat} (far : 2048 ≤ n) : pgopen n s = refuse .range s := by
  rw [pgopen, index_eq_none far]

theorem pgopen_of_page (g : PageId) : pgopen g.val s = okWith { s with ast := { s.ast with buffer := some ⟨g, .fill 0xFF⟩ } } [] := by
  rw [pgopen, index_val]
  rfl

section Pgdata
variable {off : Nat} {bs : List Byte} {l : PageLoad}

theorem pgdata_of_misfit (misfit : 511 < off ∨ bs.length = 0 ∨ 32 < bs.length) : pgdata off bs s = refuse .range s := if_pos misfit

variable (fits : ¬(511 < off ∨ bs.length = 0 ∨ 32 < bs.length))
include fits

theorem pgdata_of_closed (closed : s.ast.buffer = none) : pgdata off bs s = refuse .state s := by
  rw [pgdata, if_neg fits, closed]

variable (loaded : s.ast.buffer = some l)
include loaded

theorem pgdata_of_long (long : 512 < off + bs.length) : pgdata off bs s = refuse .range s := by
  rw [pgdata, if_neg fits, loaded]
  exact if_pos long

theorem pgdata_of_room (room : off + bs.length ≤ 512) : pgdata off bs s =
    okWith { s with ast := { s.ast with buffer := some ⟨l.page, writeSamples l.content off bs⟩ } } [] := by
  rw [pgdata, if_neg fits, loaded]
  exact if_neg room.not_gt

end Pgdata

section WriteSamples
variable (c : PageContent) {off : Nat} {bs : List Byte} {i : Fin 512}

theorem writeSamples_beside (beside : i.val < off ∨ off + bs.length ≤ i.val) : (writeSamples c off bs).get i = c.get i := by
  rw [writeSamples, Table.get_make]
  split
  · next behind =>
    have past : bs.length ≤ i.val - off := by omega
    rw [List.getElem?_eq_none past, Option.getD_none]
  · rfl

theorem writeSamples_at {k : Nat} {b : Byte} (place : i.val = off + k) (sample : bs[k]? = some b) :
    (writeSamples c off bs).get i = b := by
  have offset : i.val - off = k := by omega
  rw [writeSamples, Table.get_make, if_pos (by omega), offset, sample, Option.getD_some]

end WriteSamples

/-! ### Committing (R168) -/

theorem GuardState.barsWrite_iff {g : GuardState} : g.barsWrite = true ↔ g = .writeBarred ∨ g = .barred := by
  cases g <;> simp [GuardState.barsWrite]

section Pgcommit
variable {l : PageLoad}

theorem pgcommit_of_closed (closed : s.ast.buffer = none) : pgcommit s = refuse .state s := by
  rw [pgcommit, closed]

variable (loaded : s.ast.buffer = some l)
include loaded

theorem pgcommit_of_refusal {st : Status} (refused : s.ast.commitRefusal l.page = some st) : pgcommit s = refuse st s := by
  rw [pgcommit, loaded]
  dsimp only
  rw [refused]

theorem pgcommit_of_pass (pass : s.ast.commitRefusal l.page = none) : pgcommit s = begun { s with ast := s.ast.commit l } := by
  rw [pgcommit, loaded]
  dsimp only
  rw [pass]

end Pgcommit

/-- An accepted commit with the unit IDLE: counted and programmed, in one change of its block. -/
theorem Store.commit_idle_eq {t : Store} (l : PageLoad) (idle : t.unit = .idle) : let b := t.blocks.get (blockOf l.page)
    t.commit l = { t with
      buffer := none
      unit := .programming l
      blocks := t.blocks.put (blockOf l.page)
        { b with writePointer := b.writePointer + 1, pages := b.pages.put (indexOf l.page) .programming } } := by
  rw [Store.commit_of_idle l idle, Store.program, Store.setPage, Store.hold, Store.editBlock]
  dsimp only
  rw [Table.edit_edit]
  rfl

end Sys2Proof.Machine

namespace Sys2Proof.Proofs
open Sys2Proof Sys2Proof.Machine

/-- Settles O31: both answers of PGOPEN. -/
theorem pgopenOpensABlankPage : Obligations.PgopenOpensABlankPage := by
  intro s p tag n hears
  refine ⟨fun far => exec_heard hears (.pgopen n) (pgopen_of_far far), fun g named => ?_⟩
  subst named
  exact exec_heard hears (.pgopen g.val) (pgopen_of_page g)

/-- Settles O32: the answers of PGDATA in the order of its checks, and the samples that stand in the buffer after it. -/
theorem pgdataWritesTheBuffer : Obligations.PgdataWritesTheBuffer := by
  intro s p tag off bs hears
  have answered := fun {t st body} => exec_heard (t := t) (st := st) (body := body) hears (.pgdata off bs)
  refine ⟨fun misfit => answered (pgdata_of_misfit misfit), fun near sent few => ?_⟩
  have fits : ¬(511 < off ∨ bs.length = 0 ∨ 32 < bs.length) := by omega
  refine ⟨fun closed => answered (pgdata_of_closed fits closed), fun l loaded => ⟨fun long => ?_, fun room => ?_⟩⟩
  · exact answered (pgdata_of_long fits loaded long)
  · exact ⟨writeSamples l.content off bs, answered (pgdata_of_room fits loaded room), fun i => writeSamples_beside l.content,
      fun i k b => writeSamples_at l.content⟩

/-- Settles O33: each check of R168 reached where the ones before it have passed, and the two forms of an accepted commit. -/
theorem pgcommitProgramsOrHolds : Obligations.PgcommitProgramsOrHolds := by
  intro s p tag hears
  have answered := fun {t st body} => exec_heard (t := t) (st := st) (body := body) hears .pgcommit
  refine ⟨fun closed => answered (pgcommit_of_closed closed), fun l loaded => ?_⟩
  intro b bars erasing misplaced full
  have barsWrite : b.guard.barsWrite = true ↔ bars := GuardState.barsWrite_iff
  have erases : s.ast.erasing (blockOf l.page) = true ↔ erasing := Store.erasing_iff
  have isFull : s.ast.unit ≠ .idle ∧ s.ast.holder.isSome = true ↔ full := and_congr_right' Option.isSome_iff_ne_none
  have refused := fun {st} (checks : s.ast.commitRefusal l.page = some st) => answered (pgcommit_of_refusal loaded checks)
  refine ⟨fun barred => ?_, fun unbarred busy => ?_, fun unbarred still order => ?_, fun unbarred still placed noRoom => ?_,
    fun unbarred still placed room idle => ?_, fun unbarred still placed room busy => ?_⟩
  · exact refused (Store.commitRefusal_of_barred (barsWrite.2 barred))
  · exact refused (Store.commitRefusal_of_erasing (mt barsWrite.1 unbarred) (erases.2 busy))
  · exact refused (Store.commitRefusal_of_misplaced (mt barsWrite.1 unbarred) (mt erases.1 still) order)
  · exact refused (Store.commitRefusal_of_full (mt barsWrite.1 unbarred) (mt erases.1 still) placed (isFull.2 noRoom))
  · have pass := Store.commitRefusal_of_room (mt barsWrite.1 unbarred) (mt erases.1 still) placed (mt isFull.1 room)
    refine answered ((pgcommit_of_pass loaded pass).trans ?_)
    rw [Store.commit_idle_eq l idle]
    rfl
  · have pass := Store.commitRefusal_of_room (mt barsWrite.1 unbarred) (mt erases.1 still) placed (mt isFull.1 room)
    refine answered ((pgcommit_of_pass loaded pass).trans ?_)
    rw [Store.commit_of_busy l busy]
    rfl

end Sys2Proof.Proofs
end

section
/-! STORE_PROGRAM_COMPLETION and STORE_ERASE_COMPLETION: what the unit's work leaves, and what the unit takes next (R169, R170, R172). -/
namespace Sys2Proof.Machine
namespace Store

/-! ### The unit takes what is held, or nothing (R169) -/

section Advance
variable {t : Store} {q : PageLoad}

theorem advance_of_empty (empty : t.holder = none) : t.advance = { t with unit := .idle } := by
  rw [advance, empty]

theorem advance_of_held (held : t.holder = some q) : t.advance =
    { t with
      unit := .programming q
      holder := none
      blocks := t.blocks.put (blockOf q.page)
        { t.blocks.get (blockOf q.page) with
          pages := (t.blocks.get (blockOf q.page)).pages.put (indexOf q.page) .programming } } := by
  rw [advance, held]
  rfl

theorem pageState_advance_held (held : t.holder = some q) (p : PageId) :
    t.advance.pageState p = if q.page = p then .programming else t.pageState p := by
  rw [advance, held]
  exact t.pageState_setPage q.page .programming p

/-- The pages that the unit does not take. -/
theorem pageState_advance_of_unheld {p : PageId} (unheld : ∀ q, t.holder = some q → q.page ≠ p) :
    t.advance.pageState p = t.pageState p := by
  cases held : t.holder with
  | none => rw [advance_of_empty held]; rfl
  | some q => rw [pageState_advance_held held, if_neg (unheld q held)]

end Advance

/-! ### Pointers and guards (R164) -/

section Records
variable (t : Store) (p : PageId) (st : PageState) (b : BlockId)

/-- The parts of a block record that no page's program changes. -/
def guardAndPointer : GuardState × Nat := ((t.blocks.get b).guard, (t.blocks.get b).writePointer)

theorem guardAndPointer_setPage : (t.setPage p st).guardAndPointer b = t.guardAndPointer b := by
  have edited : (t.setPage p st).blocks.get b = _ := t.block_editBlock (blockOf p) _ b
  rw [guardAndPointer, edited]
  split
  · next same => rw [same]; rfl
  · rfl

theorem guardAndPointer_programEnd (l : PageLoad) (r : StoreResult) : (t.programEnd l r).guardAndPointer b = t.guardAndPointer b := by
  cases r <;> exact t.guardAndPointer_setPage l.page _ b

theorem guardAndPointer_advance : t.advance.guardAndPointer b = t.guardAndPointer b := by
  unfold advance
  split
  · next q _ => exact guardAndPointer_setPage { t with holder := none } q.page .programming b
  · rfl

end Records

/-! ### A program ended (R169, R170) -/

/-- The store after a program completion. -/
def programDone (t : Store) (l : PageLoad) (r : StoreResult) : Store := ((t.programEnd l r).record (.program l.page r)).advance

section ProgramDone
variable {t : Store} {l : PageLoad} {r : StoreResult}

theorem programDone_holder (t : Store) (l : PageLoad) (r : StoreResult) :
    ((t.programEnd l r).record (.program l.page r)).holder = t.holder := programEnd_holder t l r

/-- Only the page that was programmed and the one taken next change their state. -/
theorem pageState_programDone {p : PageId} (unheld : ∀ q, t.holder = some q → q.page ≠ p) :
    (t.programDone l r).pageState p = if l.page = p then pageAfterProgram r else t.pageState p :=
  (pageState_advance_of_unheld fun q held => unheld q ((programDone_holder t l r).symm.trans held)).trans (t.pageState_programEnd l r p)

theorem guardAndPointer_programDone (b : BlockId) : (t.programDone l r).guardAndPointer b = t.guardAndPointer b :=
  (guardAndPointer_advance _ b).trans (t.guardAndPointer_programEnd b l r)

/-- Sample `i` of a page stands at its own address (R163). -/
theorem read_programmed (wf : t.memory.wf = true) (i : Fin 512) :
    (t.programEnd l .pass).memory.read (512 * l.page.val + i.val) = l.content.get i := by
  have read := Memory.read_writeRun (bs := l.content.rows.toList) (a := pageBase l.page) wf (512 * l.page.val + i.val)
  have inRun : pageBase l.page ≤ 512 * l.page.val + i.val := Nat.le_add_right _ _
  have offset : 512 * l.page.val + i.val - pageBase l.page = i.val := Nat.add_sub_cancel_left _ _
  have sample : l.content.rows.toList[i.val]? = some (l.content.get i) := by
    rw [List.getElem?_eq_getElem (by simp)]
    simp [Table.get]
  rw [if_pos inRun, offset, sample, Option.getD_some] at read
  exact read

/-- A program writes its own page alone, and one that failed writes nothing. -/
theorem read_programEnd (wf : t.memory.wf = true) {a : Nat}
    (beside : r = .fail ∨ a < 512 * l.page.val ∨ 512 * l.page.val + 512 ≤ a) : (t.programEnd l r).memory.read a = t.memory.read a := by
  cases r with
  | fail => rfl
  | pass =>
    have read := Memory.read_writeRun (bs := l.content.rows.toList) (a := pageBase l.page) wf a
    refine read.trans ?_
    obtain failed | below | above := beside
    · cases failed
    · exact if_neg (Nat.not_le.2 below)
    · have past : l.content.rows.toList.length ≤ a - pageBase l.page := by
        rw [Vector.length_toList, pageBase]
        omega
      rw [List.getElem?_eq_none past, Option.getD_none, ite_self]

theorem programDone_memory (t : Store) (l : PageLoad) (r : StoreResult) : (t.programDone l r).memory = (t.programEnd l r).memory :=
  advance_memory _

/-- What a program completion leaves of the rest of the store (R170). -/
theorem programDone_frame (t : Store) (l : PageLoad) (r : StoreResult) : let u := t.programDone l r
    u.last = some (.program l.page r) ∧ u.previous = t.last ∧ u.buffer = t.buffer ∧ u.messages = t.messages ∧
      u.settings = t.settings ∧ u.saving = t.saving := by
  unfold programDone advance
  cases r <;> split <;> exact ⟨rfl, rfl, rfl, rfl, rfl, rfl⟩

theorem programDone_of_empty (empty : t.holder = none) : (t.programDone l r).unit = .idle ∧ (t.programDone l r).holder = none := by
  have held := (programDone_holder t l r).trans empty
  rw [programDone, advance_of_empty held]
  exact ⟨rfl, held⟩

theorem programDone_of_held {q : PageLoad} (held : t.holder = some q) :
    (t.programDone l r).unit = .programming q ∧ (t.programDone l r).holder = none ∧ (t.programDone l r).pageState q.page = .programming := by
  have held := (programDone_holder t l r).trans held
  refine ⟨?_, ?_, (pageState_advance_held held q.page).trans (if_pos rfl)⟩ <;> rw [programDone, advance_of_held held]

end ProgramDone
end Store

theorem storeProgramCompletion_of_programming {s : State} {l : PageLoad} (r : StoreResult) (unit : s.ast.unit = .programming l) :
    storeProgramCompletion r s = ({ s with ast := s.ast.programDone l r } : State).raise (.storeProgramDone (blockOf l.page) l.page r) := by
  rw [storeProgramCompletion, unit]
  rfl

theorem storeProgramCompletion_of_other {s : State} (r : StoreResult) (other : ∀ l, s.ast.unit ≠ .programming l) :
    storeProgramCompletion r s = s := by
  unfold storeProgramCompletion
  split
  · next l unit => exact absurd unit (other l)
  · rfl

/-! ### An erase ended (R170, R172) -/

theorem GuardState.erased_eq (g : GuardState) : g.erased = if g = .writeBarred then .opened else g := by cases g <;> rfl

theorem eraseCounted_eq (n : Nat) : eraseCounted n = min (n + 1) 65535 := min_comm _ _

theorem storeEraseCompletion_of_erasing {s : State} {b : BlockId} (r : StoreResult) (unit : s.ast.unit = .erasing b) :
    storeEraseCompletion r s =
      ({ s with ast := ((s.ast.eraseEnd b r).record (.erase b r)).advance } : State).raise (.storeEraseDone b r) := by
  rw [storeEraseCompletion, unit]

theorem storeEraseCompletion_of_other {s : State} (r : StoreResult) (other : ∀ b, s.ast.unit ≠ .erasing b) :
    storeEraseCompletion r s = s := by
  unfold storeEraseCompletion
  split
  · next b unit => exact absurd unit (other b)
  · rfl

/-- The record of a block after an erase of it (R172). -/
def StoreBlock.afterErase (x : StoreBlock) : StoreResult → StoreBlock
  | .pass => ⟨if x.guard = .writeBarred then .opened else x.guard, 0, min (x.eraseCount + 1) 65535, .fill .erased⟩
  | .fail => ⟨x.guard, 64, min (x.eraseCount + 1) 65535, .fill .failed⟩

theorem Store.eraseEnd_eq (t : Store) (b : BlockId) (r : StoreResult) :
    t.eraseEnd b r = { t with blocks := t.blocks.put b ((t.blocks.get b).afterErase r) } := by
  cases r with
  | pass => rw [StoreBlock.afterErase, ← GuardState.erased_eq, ← eraseCounted_eq]; rfl
  | fail => rw [StoreBlock.afterErase, ← eraseCounted_eq]; rfl

/-- The store after an erase completion, with nothing held. -/
theorem Store.eraseDone_of_empty {t : Store} (b : BlockId) (r : StoreResult) (empty : t.holder = none) :
    ((t.eraseEnd b r).record (.erase b r)).advance =
      { t with
        unit := .idle
        previous := t.last
        last := some (.erase b r)
        blocks := t.blocks.put b ((t.blocks.get b).afterErase r) } := by
  rw [Store.eraseEnd_eq]
  exact Store.advance_of_empty empty

/-- The store after an erase completion, with a page held. -/
theorem Store.eraseDone_of_held {t : Store} {q : PageLoad} (b : BlockId) (r : StoreResult) (held : t.holder = some q) :
    let blocks := t.blocks.put b ((t.blocks.get b).afterErase r)
    let y := blocks.get (blockOf q.page)
    ((t.eraseEnd b r).record (.erase b r)).advance =
      { t with
        unit := .programming q
        holder := none
        previous := t.last
        last := some (.erase b r)
        blocks := blocks.put (blockOf q.page) { y with pages := y.pages.put (indexOf q.page) .programming } } := by
  rw [Store.eraseEnd_eq]
  exact Store.advance_of_held held

end Sys2Proof.Machine

namespace Sys2Proof.Proofs
open Sys2Proof Sys2Proof.Machine

/-- Settles O34: the end of the program writes the page it was given alone, the result enters the history, and the unit takes the held page, which is
another one. -/
theorem programCompletionStoresThePage : Obligations.ProgramCompletionStoresThePage := by
  intro s r awake
  refine ⟨fun l unit wf apart => ?_, fun other => ?_⟩
  · have done : exec (.storeProgramCompletion r) s = _ :=
      (eventCommand_awake awake _).trans (congrArg _ (storeProgramCompletion_of_programming r unit))
    obtain ⟨last, previous, buffer, messages, settings, saving⟩ := Store.programDone_frame s.ast l r
    refine ⟨_, done, ?_, fun g other unheld => ?_, fun b => ?_, fun pass i => ?_, fun a beside => ?_, last, previous,
      Store.programDone_of_empty, fun q => Store.programDone_of_held, rfl, buffer, messages, settings, saving, rfl⟩
    · refine (Store.pageState_programDone apart).trans ((if_pos rfl).trans ?_)
      cases r <;> rfl
    · exact (Store.pageState_programDone unheld).trans (if_neg other.symm)
    · obtain ⟨guard, pointer⟩ := Prod.mk.inj (Store.guardAndPointer_programDone (t := s.ast) (l := l) (r := r) b)
      exact ⟨pointer, guard⟩
    · subst pass
      exact (congrArg (Memory.read · _) (s.ast.programDone_memory l .pass)).trans (Store.read_programmed wf i)
    · exact (congrArg (Memory.read · _) (s.ast.programDone_memory l r)).trans (Store.read_programEnd wf beside)
  · exact (eventCommand_awake awake _).trans (congrArg _ (storeProgramCompletion_of_other r other))

/-- Settles O36: the block as the erase leaves it, then the held page taken or the unit IDLE. -/
theorem eraseCompletionEndsTheErase : Obligations.EraseCompletionEndsTheErase := by
  intro s r awake
  refine ⟨fun b unit => ?_, fun other => ?_⟩
  · intro x blocks
    have ended : blocks = s.ast.blocks.put b (x.afterErase r) := by cases r <;> rfl
    have done : exec (.storeEraseCompletion r) s = _ :=
      (eventCommand_awake awake _).trans (congrArg _ (storeEraseCompletion_of_erasing r unit))
    rw [ended]
    refine ⟨fun empty => ?_, fun q held => ?_⟩
    · rw [Store.eraseDone_of_empty b r empty] at done
      exact done
    · rw [Store.eraseDone_of_held b r held] at done
      exact done
  · exact (eventCommand_awake awake _).trans (congrArg _ (storeEraseCompletion_of_other r other))

end Sys2Proof.Proofs
end

section
/-! BLKERASE and BLKGUARD: what each answers, case by case (R171, R173). -/
namespace Sys2Proof.Machine

/-! ### Erasing (R171) -/

theorem GuardState.barsErase_iff {g : GuardState} : g.barsErase = true ↔ g = .eraseBarred ∨ g = .barred := by
  cases g <;> simp [GuardState.barsErase]

namespace Store
variable {t : Store} {b : BlockId}

/-- A block is in use where a READY message has a page in it. -/
theorem blockInUse_of_page {m : MessageId} {e : Message} {q : PageId} (entry : t.messages.get m = some e) (first : e.first ≤ q.val)
    (last : q.val < e.first + e.count) (block : blockOf q = b) : t.blockInUse b = true := by
  obtain ⟨low, high⟩ := blockOf_eq_iff.1 block
  exact blockInUse_iff.2 ⟨m, e, entry, by omega, by omega⟩

/-- A message that is not empty has a page in every block that its run meets. -/
theorem page_of_blockInUse (filled : ∀ (m : MessageId) (e : Message), t.messages.get m = some e → 1 ≤ e.count)
    (inUse : t.blockInUse b = true) : ∃ (m : MessageId) (e : Message) (q : PageId), t.messages.get m = some e ∧
      e.first ≤ q.val ∧ q.val < e.first + e.count ∧ blockOf q = b := by
  obtain ⟨m, e, entry, first, last⟩ := blockInUse_iff.1 inUse
  have count := filled m e entry
  have block := b.isLt
  obtain ⟨q, place⟩ : ∃ q : PageId, q.val = max e.first (64 * b.val) := ⟨⟨_, by omega⟩, rfl⟩
  exact ⟨m, e, q, entry, by omega, by omega, blockOf_eq_iff.2 ⟨by omega, by omega⟩⟩

end Store

section Blkerase
variable {s : State} {b : BlockId}

theorem blkerase_of_far {n : Nat} (far : 32 ≤ n) : blkerase n s = refuse .range s := by
  rw [blkerase, index_eq_none far]

theorem blkerase_of_refusal {st : Status} (refused : s.ast.eraseRefusal b = some st) : blkerase b.val s = refuse st s := by
  rw [blkerase, index_val]
  dsimp only
  rw [refused]

theorem blkerase_of_pass (pass : s.ast.eraseRefusal b = none) : blkerase b.val s = begun { s with ast := s.ast.beginErase b } := by
  rw [blkerase, index_val]
  dsimp only
  rw [pass]

end Blkerase

/-- An erase clears the addresses of its own block alone. -/
theorem Store.read_beginErase {t : Store} {b : BlockId} (wf : t.memory.wf = true) {a : Nat}
    (beside : a < 32768 * b.val ∨ 32768 * b.val + 32768 ≤ a) : (t.beginErase b).memory.read a = t.memory.read a :=
  (Memory.read_clear wf a).trans (if_neg (by omega))

/-! ### Guarding (R173) -/

section Blkguard
variable {s : State} {b : BlockId}

theorem blkguard_of_unnamed {n bar : Nat} (unnamed : 32 ≤ n ∨ 2 ≤ bar) : blkguard n bar s = refuse .range s := by
  unfold blkguard
  obtain far | unknown := unnamed
  · rw [index_eq_none far]
  · have code : codeBar bar = none := by
      match bar, unknown with
      | _ + 2, _ => rfl
    rw [code]
    cases index 32 n <;> rfl

theorem blkguard_erase : blkguard b.val 0 s =
    okWith { s with ast := s.ast.editBlock b fun x => { x with guard := x.guard.raiseErase } } [] := by
  rw [blkguard, index_val]
  rfl

theorem blkguard_write : blkguard b.val 1 s =
    if (s.ast.blocks.get b).guard.barsWrite then okWith s []
    else if s.ast.programmingIn b || s.ast.heldIn b || s.ast.erasing b then refuse .busy s
    else okWith { s with ast := s.ast.editBlock b fun x => { x with guard := x.guard.raiseWrite } } [] := by
  rw [blkguard, index_val]
  rfl

end Blkguard

/-- A change of a block record told by the record it stands at. -/
theorem Store.editBlock_congr {t : Store} {b : BlockId} {f h : StoreBlock → StoreBlock} (same : f (t.blocks.get b) = h (t.blocks.get b)) :
    t.editBlock b f = t.editBlock b h := by
  rw [Store.editBlock, Store.editBlock, Table.edit, Table.edit, same]

/-- A page of the block is in flight, or the block is being erased (R173). -/
theorem Store.inFlight_iff {t : Store} {b : BlockId} : (t.programmingIn b || t.heldIn b || t.erasing b) = true ↔
    (∃ l, t.unit = .programming l ∧ blockOf l.page = b) ∨ (∃ l, t.holder = some l ∧ blockOf l.page = b) ∨ t.unit = .erasing b := by
  rw [Bool.or_eq_true, Bool.or_eq_true, Store.programmingIn_iff, Store.heldIn_iff, Store.erasing_iff, or_assoc]

end Sys2Proof.Machine

namespace Sys2Proof.Proofs
open Sys2Proof Sys2Proof.Machine

/-- Settles O35: each check of R171 reached where the ones before it have passed, and the erase begun. -/
theorem blkeraseBeginsAnErase : Obligations.BlkeraseBeginsAnErase := by
  intro s p tag n hears
  have answered := fun {t st body} => exec_heard (t := t) (st := st) (body := body) hears (.blkerase n)
  refine ⟨fun far => answered (blkerase_of_far far), fun b named => ?_⟩
  subst named
  intro g bars inUse busy
  have barsErase : g.barsErase = true ↔ bars := GuardState.barsErase_iff
  have isBusy : s.ast.unit ≠ .idle ∨ s.ast.holder.isSome = true ↔ busy := or_congr_right Option.isSome_iff_ne_none
  have refused := fun {st} (checks : s.ast.eraseRefusal b = some st) => answered (blkerase_of_refusal checks)
  refine ⟨fun barred => ?_, fun unbarred used => ?_, fun unbarred free working filled => ?_, fun unbarred free idle filled wf => ?_⟩
  · exact refused (Store.eraseRefusal_of_barred (barsErase.2 barred))
  · obtain ⟨m, e, q, entry, first, last, block⟩ := used
    exact refused (Store.eraseRefusal_of_inUse (mt barsErase.1 unbarred) (Store.blockInUse_of_page entry first last block))
  · exact refused (Store.eraseRefusal_of_busy (mt barsErase.1 unbarred) (mt (Store.page_of_blockInUse filled) free) (isBusy.2 working))
  · have pass := Store.eraseRefusal_of_idle (mt barsErase.1 unbarred) (mt (Store.page_of_blockInUse filled) free) (mt isBusy.1 idle)
    exact ⟨(s.ast.beginErase b).memory, answered (blkerase_of_pass pass), fun a => Store.read_beginErase wf⟩

/-- Settles O37: Table 8-2 row by row; a bar-write looks at pages in flight where the guard does not bar writing yet. -/
theorem blkguardRaisesABar : Obligations.BlkguardRaisesABar := by
  intro s p tag n bar hears
  have answered := fun {t st body} => exec_heard (t := t) (st := st) (body := body) hears (.blkguard n bar)
  refine ⟨fun unnamed => answered (blkguard_of_unnamed unnamed), fun b named => ?_⟩
  subst named
  intro g set inFlight
  have flying : (s.ast.programmingIn b || s.ast.heldIn b || s.ast.erasing b) = true ↔ inFlight := Store.inFlight_iff
  have barsWrite : g.barsWrite = true ↔ g = .writeBarred ∨ g = .barred := GuardState.barsWrite_iff
  have stored : ∀ {f : GuardState → GuardState} {h : GuardState}, f g = h →
      okWith { s with ast := s.ast.editBlock b fun x => { x with guard := f x.guard } } [] = ⟨set h, .ok, []⟩ := by
    intro f h moved
    have same := Store.editBlock_congr (t := s.ast) (b := b) (f := fun x => { x with guard := f x.guard })
      (h := fun x => { x with guard := h }) (congrArg (StoreBlock.mk · _ _ _) moved)
    rw [same]
    rfl
  have raised : ∀ {h : GuardState}, bar = 1 → ¬g.barsWrite = true → ¬inFlight → g.raiseWrite = h →
      exec (.blkguard p tag b.val bar) s = .next ((set h).answered p tag 19 .ok []) := by
    intro h write unbarred still moved
    subst write
    exact answered ((blkguard_write.trans ((if_neg unbarred).trans (if_neg (mt flying.1 still)))).trans (stored moved))
  refine ⟨fun erase => ?_, fun write bars => ?_, fun write opens fly => ?_, fun write opened still => ?_, fun write opened still => ?_⟩
  · subst erase
    refine answered (blkguard_erase.trans (stored ?_))
    cases g <;> rfl
  · subst write
    exact answered (blkguard_write.trans (if_pos (barsWrite.2 bars)))
  · subst write
    have unbarred : ¬g.barsWrite = true := by obtain opened | opened := opens <;> rw [opened] <;> decide
    exact answered (blkguard_write.trans ((if_neg unbarred).trans (if_pos (flying.2 fly))))
  · exact raised write (opened ▸ by decide) still (opened ▸ rfl)
  · exact raised write (opened ▸ by decide) still (opened ▸ rfl)

end Sys2Proof.Proofs
end

section
/-! MSGDEF and MSGCLR: what each answers, case by case (R175, R176). -/
namespace Sys2Proof.Machine

/-! ### Defining a message (R175) -/

namespace Store
variable {t : Store} {a : MsgdefArgs} {m : MessageId}

theorem defineRefusal_of_misfit (misfit : 47 < a.message ∨ 2047 < a.first ∨ a.count = 0 ∨ 256 < a.count) :
    t.defineRefusal a = some .range := by
  unfold defineRefusal
  split
  · rfl
  · next m found =>
    obtain far | numbers := misfit
    · exact absurd ((index_eq_none far).symm.trans found) nofun
    · exact if_pos numbers

variable (named : a.message = m.val) (fits : ¬(2047 < a.first ∨ a.count = 0 ∨ 256 < a.count))
include named fits

/-- The checks from the second on, for numbers in range. -/
theorem defineRefusal_eq : t.defineRefusal a =
    if (t.messages.get m).isSome then some .inUse
    else if 2048 < a.first + a.count then some .range
    else if !t.runProgrammed ⟨a.first, a.count, a.gain⟩ then some .state
    else none := by
  rw [defineRefusal, named, index_val]
  exact if_neg fits

theorem defineRefusal_of_defined (defined : t.messages.get m ≠ none) : t.defineRefusal a = some .inUse :=
  (defineRefusal_eq named fits).trans (if_pos (Option.isSome_iff_ne_none.2 defined))

variable (empty : t.messages.get m = none)
include empty

theorem defineRefusal_of_long (long : 2048 < a.first + a.count) : t.defineRefusal a = some .range := by
  rw [defineRefusal_eq named fits, empty]
  exact if_pos long

variable (within : a.first + a.count ≤ 2048)
include within

theorem defineRefusal_of_within : t.defineRefusal a = if t.runProgrammed ⟨a.first, a.count, a.gain⟩ then none else some .state := by
  rw [defineRefusal_eq named fits, empty, if_neg (by simp), if_neg within.not_gt]
  cases t.runProgrammed ⟨a.first, a.count, a.gain⟩ <;> rfl

end Store

section Msgdef
variable {s : State} {a : MsgdefArgs} {m : MessageId}

theorem msgdef_of_refusal {st : Status} (refused : s.ast.defineRefusal a = some st) : msgdef a s = refuse st s := by
  rw [msgdef, refused]
  cases index 48 a.message <;> rfl

theorem msgdef_of_pass (named : a.message = m.val) (pass : s.ast.defineRefusal a = none) : msgdef a s =
    okWith { s with ast := { s.ast with messages := s.ast.messages.put m (some ⟨a.first, a.count, a.gain⟩) } } [] := by
  rw [msgdef, pass, named, index_val]

end Msgdef

/-! ### Clearing an entry (R176) -/

theorem BreakIn.mem_held {b : BreakIn} {r : AnnRequest} :
    r ∈ b.held ↔ r ∈ b.queue ∨ b.bp0.request = some r ∨ b.bp1.request = some r := by
  rw [BreakIn.held, List.mem_append, List.mem_append, Option.mem_toList, Option.mem_toList, or_assoc]

/-- A message is named as often as not at all, or by some held request. -/
theorem namedBy_ne_zero {b : BreakIn} {m : MessageId} : namedBy b m ≠ 0 ↔ ∃ r ∈ b.held, r.message = .stored m := by
  simp only [namedBy, ne_eq, List.length_eq_zero_iff, List.filter_eq_nil_iff, decide_eq_true_eq, not_forall, not_not, exists_prop]

section Msgclr
variable {s : State} {m : MessageId}

theorem msgclr_of_far {n : Nat} (far : 47 < n) : msgclr n s = refuse .range s := by
  rw [msgclr, index_eq_none far]

theorem msgclr_of_named (named : namedBy s.bku m ≠ 0) : msgclr m.val s = refuse .inUse s := by
  rw [msgclr, index_val]
  exact if_pos named

theorem msgclr_of_free (free : ¬namedBy s.bku m ≠ 0) :
    msgclr m.val s = okWith { s with ast := { s.ast with messages := s.ast.messages.put m none } } [] := by
  rw [msgclr, index_val]
  exact if_neg free

end Msgclr
end Sys2Proof.Machine

namespace Sys2Proof.Proofs
open Sys2Proof Sys2Proof.Machine

/-- Settles O38: the checks of R175 in their order; the last one reads every page of the run. -/
theorem msgdefNamesProgrammedPages : Obligations.MsgdefNamesProgrammedPages := by
  intro s p tag a hears
  have answered := fun {t st body} => exec_heard (t := t) (st := st) (body := body) hears (.msgdef a)
  have refused := fun {st} (checks : s.ast.defineRefusal a = some st) => answered (msgdef_of_refusal checks)
  refine ⟨fun misfit => refused (Store.defineRefusal_of_misfit misfit), fun m named near filled few => ?_⟩
  have fits : ¬(2047 < a.first ∨ a.count = 0 ∨ 256 < a.count) := by omega
  refine ⟨fun defined => ?_, fun empty long => ?_, fun empty within => ?_⟩
  · exact refused (Store.defineRefusal_of_defined named fits defined)
  · exact refused (Store.defineRefusal_of_long named fits empty long)
  · have run := Store.runProgrammed_iff (t := s.ast) (e := ⟨a.first, a.count, a.gain⟩) within
    have checks := Store.defineRefusal_of_within named fits empty within
    refine ⟨fun ⟨q, first, last, unwritten⟩ => ?_, fun written => ?_⟩
    · have blank := mt run.1 fun all => unwritten (all q (Message.has_iff.2 ⟨first, last⟩))
      exact refused (checks.trans (if_neg blank))
    · have all := run.2 fun q has => written q (Message.has_iff.1 has).1 (Message.has_iff.1 has).2
      exact answered (msgdef_of_pass named (checks.trans (if_pos all)))

/-- Settles O39: the count of requests that name a message is not 0 where one held request names it. -/
theorem msgclrEmptiesTheEntry : Obligations.MsgclrEmptiesTheEntry := by
  intro s p tag n hears
  have answered := fun {t st body} => exec_heard (t := t) (st := st) (body := body) hears (.msgclr n)
  refine ⟨fun far => answered (msgclr_of_far far), fun m number => ?_⟩
  subst number
  intro named
  have isNamed : namedBy s.bku m ≠ 0 ↔ named := by
    rw [namedBy_ne_zero]
    exact exists_congr fun r => and_congr_left' BreakIn.mem_held
  exact ⟨fun held => answered (msgclr_of_named (isNamed.2 held)), fun free => answered (msgclr_of_free (mt isNamed.1 free))⟩

end Sys2Proof.Proofs
end

section
/-! SAVE and SETTINGS_SAVE_COMPLETION: the snapshot taken, and what the completion makes of it (R177, R178). -/
namespace Sys2Proof.Machine

theorem save_of_running {s : State} (running : s.ast.saving ≠ none) : save s = refuse .busy s :=
  if_pos (Option.isSome_iff_ne_none.2 running)

theorem save_of_free {s : State} (free : s.ast.saving = none) :
    save s = begun { s with ast := { s.ast with settings := none, saving := some s.snapshot } } := by
  rw [save, free]
  rfl

theorem settingsSaveCompletion_of_free {s : State} (r : StoreResult) (free : s.ast.saving = none) : settingsSaveCompletion r s = s := by
  rw [settingsSaveCompletion, free]

/-- A carrier as the snapshot holds it (R177). -/
theorem snapshot_carrier (s : State) (c : CarrierId) : s.snapshot.carriers.get c = (s.ctb.get c).saved := Table.get_make _ c

theorem snapshot_group (s : State) (g : GroupId) : s.snapshot.groups.get g = configOf s.lal g := Table.get_make _ g

/-- A record saved keeps the trims of its placements (R177). -/
theorem saved_trim (x : Carrier) (g : GroupId) : (x.saved.placements.get g).map (·.trim) = (x.placements.get g).map (·.trim) := by
  rw [Carrier.saved, barePlacements, Table.get_make, Option.map_map]
  rfl

end Sys2Proof.Machine

namespace Sys2Proof.Proofs
open Sys2Proof Sys2Proof.Machine

/-- Settles O40: the snapshot read field by field, and both results of the completion. -/
theorem saveTakesAndWritesASnapshot : Obligations.SaveTakesAndWritesASnapshot := by
  intro s
  refine ⟨fun p tag hears => ⟨fun running => exec_heard hears .save (save_of_running running), fun free => ?_⟩, fun awake r => ⟨fun free => ?_,
    fun x saving => ?_⟩⟩
  · refine ⟨s.snapshot, exec_heard hears .save (save_of_free free), rfl, rfl, rfl, rfl, rfl, snapshot_group s, fun c => ?_⟩
    rw [snapshot_carrier]
    exact ⟨rfl, rfl, saved_trim _⟩
  · exact (eventCommand_awake awake _).trans (congrArg _ (settingsSaveCompletion_of_free r free))
  · refine (eventCommand_awake awake _).trans (congrArg _ ?_)
    rw [settingsSaveCompletion, saving]
    cases r <;> rfl

end Sys2Proof.Proofs
end

section
/-! The INCIDENT event written out: the hub it leaves and the notices in their order, whether it follows a change of level or a row written (R40, R145,
R185). -/
namespace Sys2Proof.Machine

/-- The hub with its incident controller at `i`, once the lane allocator has left `a` and the break-in unit `b`: INCIDENT first, then the
allocator's notices, then the unit's. -/
def State.afterIncident (s : State) (cause : IncidentCause) (i : Incident) (a : Alloc) (b : Bku) : State :=
  { s with
    ict := i
    ctb := a.ctb
    lal := a.lal
    ucb := { s.ucb with gates := a.gates }
    bku := b.unit
    mga := s.mga.raiseAll (.incident i.effective i.latched i.commanded i.lineLevel cause :: (a.out ++ b.out)) }

variable {s : State} {i : Incident} {cause : IncidentCause}

theorem afterIncident_eq (a : Alloc) (b : Bku) : s.afterIncident cause i a b =
    ((({ s with ict := i } : State).raise (.incident i.effective i.latched i.commanded i.lineLevel cause)).withAlloc a).withBku b := by
  rw [State.afterIncident, ← List.singleton_append, Agent.raiseAll_append, Agent.raiseAll_append]
  rfl

/-- The event reads of the hub before it all but the controller, and of the controller only what it holds after the change. -/
theorem incidentEvent_afterIncident (old : Nat) : incidentEvent cause old { s with ict := i } =
    s.afterIncident cause i (s.alloc.incident i.row) (s.bkuView.maskChange old i.row.announceMask) :=
  (incidentEvent_eq cause old _).trans (afterIncident_eq _ _).symm

theorem afterIncident_ctb (a : Alloc) (b : Bku) : (s.afterIncident cause i a b).ctb = a.ctb := rfl

theorem afterIncident_lal (a : Alloc) (b : Bku) : (s.afterIncident cause i a b).lal = a.lal := rfl

/-- No carrier's fields or state move in the event (R40). -/
theorem afterIncident_carrier (row : ProfileRow) (b : Bku) (d : CarrierId) :
    ((s.afterIncident cause i (s.alloc.incident row) b).ctb.get d).fields = (s.ctb.get d).fields ∧
    ((s.afterIncident cause i (s.alloc.incident row) b).ctb.get d).state = (s.ctb.get d).state := by
  rw [afterIncident_ctb]
  exact ((Alloc.incident_keeps row s.alloc).1 d).symm

theorem afterIncident_configOf (row : ProfileRow) (b : Bku) (g : GroupId) :
    configOf (s.afterIncident cause i (s.alloc.incident row) b).lal g = configOf s.lal g := by
  rw [afterIncident_lal]
  exact (Alloc.incident_keeps row s.alloc).2 g

/-! ### A change of the controller -/

theorem changeLevels_of_level_same (same : i.effective = s.ict.effective) : changeLevels cause i s = { s with ict := i } :=
  if_pos same

theorem changeLevels_of_level_moved (moved : i.effective ≠ s.ict.effective) :
    changeLevels cause i s =
      s.afterIncident cause i (s.alloc.incident i.row) (s.bkuView.maskChange s.ict.row.announceMask i.row.announceMask) :=
  (if_neg moved).trans (incidentEvent_afterIncident _)

/-! ### The controller after a line sample (R182) -/

namespace Incident
variable (i : Incident) (n : FrameNo) (line : Bool)

theorem sample_asserted : (i.sample n line).asserted = line := by cases line <;> rfl

theorem sample_commanded : (i.sample n line).commanded = i.commanded := by cases line <;> rfl

theorem sample_lineLevel : (i.sample n line).lineLevel = i.lineLevel := by cases line <;> rfl

theorem sample_profile : (i.sample n line).profile = i.profile := by cases line <;> rfl

theorem sample_run : (i.sample n line).run = if line then min 3 (i.run + 1) else 0 := by cases line <;> rfl

/-- The run is 3 from the third asserted sample in a row on. -/
theorem sample_latched : (i.sample n line).latched = if line = true ∧ 2 ≤ i.run then max i.latched i.lineLevel else i.latched := by
  cases line with
  | false => exact (if_neg fun h => Bool.false_ne_true h.1).symm
  | true =>
    have third : min 3 (i.run + 1) = 3 ↔ 2 ≤ i.run := by omega
    exact if_congr (third.trans (and_iff_right rfl).symm) rfl rfl

end Incident
end Sys2Proof.Machine

namespace Sys2Proof.Proofs
open Sys2Proof Sys2Proof.Machine

/-- Settles O47: the sample changes the controller alone, and the event follows where the effective level has moved. -/
theorem lineSampleLatchesAtThree : Obligations.LineSampleLatchesAtThree := by
  intro s n line t
  have ict : t.ict = s.ict.sample n line := changeLevels_ict _ _ _
  have commanded := s.ict.sample_commanded n line
  have lineLevel := s.ict.sample_lineLevel n line
  have profile := s.ict.sample_profile n line
  rw [ict]
  refine ⟨s.ict.sample_asserted n line, s.ict.sample_sampleHfn n line, commanded, lineLevel, profile, s.ict.sample_run n line,
    s.ict.sample_latched n line, changeLevels_of_level_same, fun moved => ?_, changeLevels_fps _ _ _, changeLevels_tif _ _ _,
    changeLevels_dmx _ _ _, changeLevels_sif _ _ _, changeLevels_ast _ _ _⟩
  have event := changeLevels_of_level_moved (cause := .line) moved
  simp only [State.afterIncident, Incident.row, Incident.effective, commanded, lineLevel, profile] at event ⊢
  exact event

end Sys2Proof.Proofs
end

section
/-! INCSET, INCCLR and PROFSET: what each makes of the controller and answers (R183, R184, R187), and the shedding, unshedding and change of announce
mask that the INCIDENT event brings (R40 to R42, R145). -/
namespace Sys2Proof.Machine

/-! ### The levels that numbers name (R184, R187) -/

theorem levelOf_eq (n : Nat) : levelOf n = Fin.ofNat 4 (min n 3) := by
  unfold levelOf
  split
  · exact Fin.ext (by simp only [Fin.ofNat]; omega)
  · rw [min_eq_right (by omega)]
    rfl

theorem clampLineLevel_eq (n : Nat) : clampLineLevel n = Fin.ofNat 4 (max 1 (min n 3)) := by
  unfold clampLineLevel
  split
  · next zero => subst zero; rfl
  · next pos => rw [levelOf_eq, max_eq_right (by omega)]

theorem clampLineLevel_changed (n : Nat) : ((clampLineLevel n).val != n) = decide (n = 0 ∨ 3 < n) := by
  rw [Bool.eq_iff_iff, bne_iff_ne, decide_eq_true_eq, clampLineLevel_eq, Fin.ofNat]
  dsimp only
  omega

/-! ### INCSET and INCCLR (R183, R184) -/

/-- INCSET answers with the effective level after it. -/
theorem incset_eq (n : Nat) (s : State) :
    incset n s = okWith (changeLevels .command { s.ict with commanded := Fin.ofNat 4 (min n 3) } s)
      ((if 3 < n then [1, 0] else [0]) ++ be 1 (max s.ict.latched (Fin.ofNat 4 (min n 3))).val) := by
  simp only [incset, changeLevels_ict, changedFields_one, levelOf_eq, decide_eq_true_eq]
  rfl

theorem incclr_of_asserted {s : State} (asserted : s.ict.asserted = true) : incclr s = refuse .state s :=
  if_pos asserted

/-- INCCLR answers with the effective level after it. -/
theorem incclr_of_clear {s : State} (clear : s.ict.asserted = false) :
    incclr s = okWith (changeLevels .command { s.ict with latched := 0 } s) (be 1 (max 0 s.ict.commanded).val) := by
  simp only [incclr, clear, changeLevels_ict]
  rfl

/-! ### PROFSET (R187) -/

/-- The controller with a row of its profile written, and the line level. -/
def Incident.withRow (i : Incident) (row : Level) (new : ProfileRow) (line : Nat) : Incident :=
  { i with profile := i.profile.put row new, lineLevel := Fin.ofNat 4 (max 1 (min line 3)) }

/-- The row as PROFSET stores it. -/
def profsetRow (a : ProfsetArgs) (talk pre prot : Bool) : ProfileRow := ⟨min a.announceMask 15, talk, pre, min a.shedRank 16, prot⟩

/-- The answer's list of the fields stored otherwise than given (R210). -/
def profsetChanged (a : ProfsetArgs) : List Byte :=
  changedFields [(1, decide (15 < a.announceMask)), (4, decide (16 < a.shedRank)), (6, decide (a.lineLevel = 0 ∨ 3 < a.lineLevel))]

/-- A row written where it is the current one is what the controller then reads. -/
theorem Incident.withRow_row (i : Incident) (new : ProfileRow) (line : Nat) : (i.withRow i.effective new line).row = new :=
  Table.get_put_self _ _ _

section Profset
variable {s : State} {a : ProfsetArgs}

theorem profset_of_unnamed (unnamed : 4 ≤ a.row ∨ codeBool a.talkAuto = none ∨ codeBool a.broadcastPreempt = none ∨
    codeBool a.protectBreakIn = none) : profset a s = refuse .range s := by
  unfold profset
  split
  · next row talk pre prot =>
    obtain far | none | none | none := unnamed
    · rw [index_eq_none far] at row; cases row
    · rw [none] at talk; cases talk
    · rw [none] at pre; cases pre
    · rw [none] at prot; cases prot
  · rfl

variable {row : Level} {talk pre prot : Bool} (row_named : a.row = row.val) (talk_named : codeBool a.talkAuto = some talk)
  (pre_named : codeBool a.broadcastPreempt = some pre) (prot_named : codeBool a.protectBreakIn = some prot)
include row_named talk_named pre_named prot_named

/-- The row is written before the controller looks at which row is the current one. -/
theorem profset_of_named : profset a s = okWith
    (if row = s.ict.effective then
      incidentEvent .profile s.ict.row.announceMask { s with ict := s.ict.withRow row (profsetRow a talk pre prot) a.lineLevel }
    else { s with ict := s.ict.withRow row (profsetRow a talk pre prot) a.lineLevel })
    (profsetChanged a) := by
  simp only [profset, row_named, index_val, talk_named, pre_named, prot_named, min_changed, clampLineLevel_changed]
  rw [clampLineLevel_eq]
  rfl

/-- A row that is not the current one is written and nothing follows. -/
theorem profset_of_other_row (other : row ≠ s.ict.effective) : profset a s = okWith
    { s with ict := s.ict.withRow row (profsetRow a talk pre prot) a.lineLevel } (profsetChanged a) := by
  rw [profset_of_named row_named talk_named pre_named prot_named, if_neg other]

/-- The current row written brings the event, under the row as written, whether or not it differs from the one before (R185). -/
theorem profset_of_current_row (current : row = s.ict.effective) : profset a s = okWith
    (s.afterIncident .profile (s.ict.withRow row (profsetRow a talk pre prot) a.lineLevel)
      (s.alloc.incident (profsetRow a talk pre prot))
      (s.bkuView.maskChange s.ict.row.announceMask (profsetRow a talk pre prot).announceMask))
    (profsetChanged a) := by
  rw [profset_of_named row_named talk_named pre_named prot_named, if_pos current, incidentEvent_afterIncident, current,
    Incident.withRow_row]

end Profset

/-! ### Shedding (R40, R41) -/

namespace Alloc
variable {g : GroupId} {row : ProfileRow} {a : Alloc} {c : CarrierId}

theorem shedOne_of_not_shedable (stays : ¬a.shedable row c = true) : shedOne g row a c = a := if_neg stays

/-- A HELD placement gives up its lane, a WAITING one its entry in the list (R41). -/
theorem shedOne_of_shedable (goes : a.shedable row c = true) : shedOne g row a c =
    if a.placementState c g = some .held then
      ((((a.laneOf g c).map fun l => a.putLane g l .default).getD a).setPlacement c g (some .shed)).say (.placement c g .shed (a.laneOf g c))
    else if a.placementState c g = some .waiting then ((a.leave g c).setPlacement c g (some .shed)).say (.placement c g .shed none)
    else a := by
  rw [← releaseOf_eq, shedOne, if_pos goes]
  cases a.placementState c g with
  | none => rfl
  | some st => cases st <;> rfl

end Alloc

/-! ### A change of the announce mask (R145) -/

theorem Player.droppedBelow_eq (p : Player) (mask : Nat) : p.droppedBelow mask =
    if (p.state = .fadeIn ∨ p.state = .playing ∨ p.state = .gap) ∧ (p.request.any fun o => decide (o.priority < mask)) = true then
      { p with state := .fadeOut, intent := some .requeue } else p := by
  have running : p.running = true ↔ p.state = .fadeIn ∨ p.state = .playing ∨ p.state = .gap := by
    simp only [Player.running, Bool.or_eq_true, decide_eq_true_eq, or_assoc]
  unfold Player.droppedBelow
  split
  · next r request =>
    have below : (p.running && decide (r.priority < mask)) = true ↔
        (p.state = .fadeIn ∨ p.state = .playing ∨ p.state = .gap) ∧ (p.request.any fun o => decide (o.priority < mask)) = true := by
      rw [Bool.and_eq_true, running, request, Option.any_some]
    exact if_congr below rfl rfl
  · next empty => exact (if_neg fun low => by rw [empty] at low; exact Bool.false_ne_true low.2).symm

theorem Bku.maskChange_of_ne {old new : Nat} (moved : old ≠ new) (b : Bku) : b.maskChange old new =
    Bku.arbiter new { b with unit := { b.unit with bp0 := b.unit.bp0.droppedBelow new, bp1 := b.unit.bp1.droppedBelow new } } :=
  (Bku.maskChange_eq old new b).trans (if_neg moved)

end Sys2Proof.Machine

namespace Sys2Proof.Proofs
open Sys2Proof Sys2Proof.Machine

/-- Settles O42: the row is written first, so where it is the current one the event reads it as written. -/
theorem profsetWritesARow : Obligations.ProfsetWritesARow := by
  intro s p tag a hears
  have answered := fun {t st body} => exec_heard (t := t) (st := st) (body := body) hears (.profset a)
  refine ⟨fun unnamed => answered (profset_of_unnamed unnamed), fun row talk pre prot named talked preempts protects => ?_⟩
  intro new i body
  refine ⟨fun other => answered (profset_of_other_row named talked preempts protects other), fun current => ?_⟩
  subst current
  intro x b
  exact ⟨answered (profset_of_current_row named talked preempts protects rfl), afterIncident_carrier (cause := .profile) (i := i) new b⟩

/-- Settles O41: either request is a change of the controller; shedding, unshedding and the change of mask are the allocator's and the break-in
unit's own steps, read case by case. -/
theorem incsetAndIncclrMoveTheLevels : Obligations.IncsetAndIncclrMoveTheLevels := by
  refine ⟨fun s p tag hears => ⟨fun asserted => exec_heard hears .incclr (incclr_of_asserted asserted), fun set n clear => ?_⟩,
    fun a row => ?_, fun old new b => ?_⟩
  · intro i c code body
    have answered : exec c s = .next ((changeLevels .command i s).answered p tag code .ok body) := by
      cases set with
      | true => exact exec_heard hears (.incset n) (incset_eq n s)
      | false => exact exec_heard hears .incclr (incclr_of_clear (clear rfl))
    refine ⟨fun same => ?_, fun moved => ?_⟩
    · rw [answered, changeLevels_of_level_same same]
    · intro row a b
      have event : changeLevels .command i s = s.afterIncident .command i a b := changeLevels_of_level_moved moved
      rw [event] at answered
      exact ⟨answered, afterIncident_carrier (cause := .command) (i := i) row b, afterIncident_configOf (cause := .command) (i := i) row b⟩
  · intro mobile free shed shedding unshedding
    have sheds : ∀ g : GroupId, shedding g = Alloc.shedOne g row := by
      intro g
      funext b c
      by_cases goes : mobile b c
      · rw [Alloc.shedOne_of_shedable (Alloc.shedable_iff.2 goes)]
        obtain ⟨kind, rank⟩ := goes
        simp only [shedding, kind, rank, decide_true]
        cases b.placementState c g with
        | none => rfl
        | some st => cases st <;> rfl
      · rw [Alloc.shedOne_of_not_shedable (mt Alloc.shedable_iff.1 goes)]
        simp only [shedding]
        split
        · next kind rank _ => exact absurd ⟨kind, of_decide_eq_true rank⟩ goes
        · next kind rank _ => exact absurd ⟨kind, of_decide_eq_true rank⟩ goes
        · rfl
    refine ⟨?_, fun c g stays => ?_, fun g c => rfl⟩
    · rw [funext sheds]
      rfl
    · rw [sheds]
      exact Alloc.shedOne_of_not_shedable (mt Alloc.shedable_iff.1 stays)
  · intro drops
    have dropped : ∀ x : Player, x.droppedBelow new = drops x := fun x => x.droppedBelow_eq new
    refine ⟨fun same => if_pos same, fun moved => ?_⟩
    rw [Bku.maskChange_of_ne moved, dropped, dropped]

end Sys2Proof.Proofs
end

section
/-! The management agent in every part of a step: notices are raised (R197), the frames take them (R198), resets empty the queue and start it anew
with START (R204, R205), and nothing else touches the queue. -/
namespace Sys2Proof.Machine

/-- From `s` to `t` the agent raises notices and does nothing else. -/
def Raised (s t : State) : Prop := ∃ ns : List Notice, t.mga = s.mga.raiseAll ns

namespace Raised
variable {s t : State}

theorem of_eq (same : t.mga = s.mga) : Raised s t := ⟨[], same⟩

theorem queueOk (raised : Raised s t) (ok : queueOk s.mga.queue) : queueOk t.mga.queue := by
  obtain ⟨ns, said⟩ := raised
  exact said ▸ Agent.raiseAll_queueOk ns ok

end Raised

/-! ### Requests -/

section Requests
variable (n : Nat) (s : State)

theorem carset_raised (a : CarsetArgs) : Raised s (carset a s).state := by
  unfold carset
  split
  · dsimp only
    split
    · split <;> exact .of_eq rfl
    · exact .of_eq rfl
  · exact .of_eq rfl

theorem caron_raised : Raised s (caron n s).state := by
  unfold caron
  split
  · exact .of_eq rfl
  · split
    · exact .of_eq rfl
    · exact ⟨_, rfl⟩

theorem caroff_raised : Raised s (caroff n s).state := by
  unfold caroff
  split
  · exact .of_eq rfl
  · split
    · exact .of_eq rfl
    · exact ⟨_, rfl⟩

theorem carclr_raised : Raised s (carclr n s).state := by
  unfold carclr
  split
  · exact .of_eq rfl
  · split <;> exact .of_eq rfl

theorem trim_raised (g v : Nat) : Raised s (trim n g v s).state := by
  unfold trim
  split
  · dsimp only
    split
    · exact .of_eq rfl
    · split <;> exact .of_eq rfl
  · exact .of_eq rfl

theorem grpset_raised (a : GrpsetArgs) : Raised s (grpset a s).state := by
  unfold grpset
  split
  · split
    · exact .of_eq rfl
    · dsimp only [okWith]
      split
      · exact ⟨_, rfl⟩
      · exact .of_eq rfl
  · exact .of_eq rfl

theorem sprst_raised : Raised s (sprst n s).state := by
  unfold sprst
  split
  · exact .of_eq rfl
  · split
    · exact .of_eq rfl
    · exact ⟨_, rfl⟩

theorem incidentEvent_raised {s t : State} (cause : IncidentCause) (mask : Nat) (same : t.mga = s.mga) :
    Raised s (incidentEvent cause mask t) := by
  obtain ⟨more, said⟩ := incidentEvent_mga cause mask t
  exact ⟨_, said.trans (congrArg (Agent.raiseAll · _) same)⟩

theorem changeLevels_raised (cause : IncidentCause) (i : Incident) : Raised s (changeLevels cause i s) := by
  unfold changeLevels
  dsimp only
  split
  · exact .of_eq rfl
  · exact incidentEvent_raised _ _ rfl

theorem incclr_raised : Raised s (incclr s).state := by
  unfold incclr
  split
  · exact .of_eq rfl
  · exact changeLevels_raised s _ _

theorem profset_raised (a : ProfsetArgs) : Raised s (profset a s).state := by
  unfold profset
  split
  · dsimp only [okWith]
    split
    · exact incidentEvent_raised _ _ rfl
    · exact .of_eq rfl
  · exact .of_eq rfl

theorem annc_raised (a : AnncArgs) : Raised s (annc a s).state := by
  unfold annc
  split
  · exact .of_eq rfl
  · repeat (split; · exact .of_eq rfl)
    exact ⟨_, rfl⟩

theorem ancan_raised : Raised s (ancan n s).state := by
  unfold ancan
  repeat (split; · exact .of_eq rfl)
  exact ⟨_, rfl⟩

theorem pgopen_raised : Raised s (pgopen n s).state := by
  unfold pgopen
  split <;> exact .of_eq rfl

theorem pgdata_raised (bs : List Byte) : Raised s (pgdata n bs s).state := by
  unfold pgdata
  split
  · exact .of_eq rfl
  · split
    · exact .of_eq rfl
    · split <;> exact .of_eq rfl

theorem pgcommit_raised : Raised s (pgcommit s).state := by
  unfold pgcommit
  split
  · exact .of_eq rfl
  · split <;> exact .of_eq rfl

theorem blkerase_raised : Raised s (blkerase n s).state := by
  unfold blkerase
  split
  · exact .of_eq rfl
  · split <;> exact .of_eq rfl

theorem blkguard_raised (bar : Nat) : Raised s (blkguard n bar s).state := by
  unfold blkguard
  split
  · exact .of_eq rfl
  · split
    · exact .of_eq rfl
    · split <;> exact .of_eq rfl
  · exact .of_eq rfl

theorem msgdef_raised (a : MsgdefArgs) : Raised s (msgdef a s).state := by
  unfold msgdef
  split <;> exact .of_eq rfl

theorem msgclr_raised : Raised s (msgclr n s).state := by
  unfold msgclr
  split
  · exact .of_eq rfl
  · split <;> exact .of_eq rfl

theorem trksel_raised : Raised s (trksel n s).state := by
  unfold trksel
  split
  · exact .of_eq rfl
  · dsimp only
    split
    · exact .of_eq rfl
    · split
      · exact .of_eq rfl
      · exact ⟨_, rfl⟩

theorem save_raised : Raised s (save s).state := by
  unfold save
  split <;> exact .of_eq rfl

/-- A RESTART marks that it is pending and leaves the queue (R203). -/
theorem restart_queue : (restart n s).state.mga.queue = s.mga.queue := by
  unfold restart
  split
  · rfl
  · split <;> rfl

end Requests

theorem requestAct_queueOk (v : State → State) (r : Request) {s : State} (ok : queueOk s.mga.queue) :
    queueOk (requestAct v r s).state.mga.queue := by
  cases r with
  | rdrec sel part => exact (rdrecOf_state (v s) sel part s).symm ▸ ok
  | carset a => exact (carset_raised s a).queueOk ok
  | caron n => exact (caron_raised n s).queueOk ok
  | caroff n => exact (caroff_raised n s).queueOk ok
  | carclr n => exact (carclr_raised n s).queueOk ok
  | trim n g x => exact (trim_raised n s g x).queueOk ok
  | grpset a => exact (grpset_raised s a).queueOk ok
  | sprst n => exact (sprst_raised n s).queueOk ok
  | incset n => exact (changeLevels_raised s _ _).queueOk ok
  | incclr => exact (incclr_raised s).queueOk ok
  | profset a => exact (profset_raised s a).queueOk ok
  | annc a => exact (annc_raised s a).queueOk ok
  | ancan n => exact (ancan_raised n s).queueOk ok
  | voxset a => exact ok
  | pgopen n => exact (pgopen_raised n s).queueOk ok
  | pgdata off bs => exact (pgdata_raised off s bs).queueOk ok
  | pgcommit => exact (pgcommit_raised s).queueOk ok
  | blkerase n => exact (blkerase_raised n s).queueOk ok
  | blkguard n bar => exact (blkguard_raised n s bar).queueOk ok
  | msgdef a => exact (msgdef_raised s a).queueOk ok
  | msgclr n => exact (msgclr_raised n s).queueOk ok
  | trksel n => exact (trksel_raised n s).queueOk ok
  | timset limit x => exact ok
  | save => exact (save_raised s).queueOk ok
  | restart n => exact (restart_queue n s).symm ▸ ok
  | causeclr => exact ok

/-! ### Events -/

section Events
variable (s : State)

theorem holdoverExpiry_raised : Raised s (holdoverExpiry s) := by
  unfold holdoverExpiry
  split
  · exact ⟨_, rfl⟩
  · exact .of_eq rfl

theorem laneGuardExpiry_raised (g : GroupId) (l : LaneId) : Raised s (laneGuardExpiry g l s) := by
  unfold laneGuardExpiry
  split <;> exact .of_eq rfl

theorem overBudget_raised (g : GroupId) : Raised s (overBudget g s) := by
  unfold overBudget
  dsimp only
  split
  · exact ⟨_, rfl⟩
  · exact .of_eq rfl

theorem missLimitReached_raised (g : GroupId) (k : Pos) (sd : Side) : Raised s (missLimitReached g k sd s) := by
  unfold missLimitReached
  dsimp only
  split
  · exact ⟨_, rfl⟩
  · exact .of_eq rfl

theorem hangExpiry_raised (g : GroupId) (l : LaneId) (k : Pos) : Raised s (hangExpiry g l k s) := by
  unfold hangExpiry
  dsimp only
  split <;> exact .of_eq rfl

theorem fadeEnd_raised (id : PlayerId) : Raised s (fadeEnd id s) := by
  unfold fadeEnd
  dsimp only
  split
  · split <;> exact .of_eq rfl
  · split
    · exact ⟨_, rfl⟩
    · exact .of_eq rfl
  · exact .of_eq rfl

theorem gapEnd_raised (id : PlayerId) : Raised s (gapEnd id s) := by
  unfold gapEnd
  dsimp only
  split <;> exact .of_eq rfl

theorem liveSpeechLoss_raised (id : PlayerId) : Raised s (liveSpeechLoss id s) := by
  unfold liveSpeechLoss
  dsimp only
  split <;> exact .of_eq rfl

theorem spanUplinkFrameArrival_raised (p : SpanId) (bs : List Byte) : Raised s (spanUplinkFrameArrival p bs s) := by
  unfold spanUplinkFrameArrival
  split
  · exact ⟨_, rfl⟩
  · exact .of_eq rfl

theorem storeProgramCompletion_raised (r : StoreResult) : Raised s (storeProgramCompletion r s) := by
  unfold storeProgramCompletion
  split
  · exact ⟨_, rfl⟩
  · exact .of_eq rfl

theorem storeEraseCompletion_raised (r : StoreResult) : Raised s (storeEraseCompletion r s) := by
  unfold storeEraseCompletion
  split
  · exact ⟨_, rfl⟩
  · exact .of_eq rfl

theorem settingsSaveCompletion_raised (r : StoreResult) : Raised s (settingsSaveCompletion r s) := by
  unfold settingsSaveCompletion
  split
  · exact .of_eq rfl
  · exact ⟨_, rfl⟩

end Events

/-- The consumption and the works of a slot raise their notices; that they clear the responses leaves the queue. -/
theorem slotWorked_queueOk (n : FrameNo) (ord : SlotOrder) {s : State} (ok : queueOk s.mga.queue) :
    queueOk (slotWorked n ord s).mga.queue := by
  rw [slotWorked_eq, openSlot_mga]
  exact Agent.raiseAll_queueOk _ (Agent.raiseAll_queueOk _ ok)

/-! ### Resets and start-up -/

theorem queueOk_nil : queueOk [] := ⟨Nat.zero_le 32, List.nodup_nil, fun _ none => nomatch none⟩

/-- The detail of START completed leaves places, keys and counts (R205). -/
theorem completeStart_queueOk (n : Notice) {m : Agent} (ok : queueOk m.queue) : queueOk (m.completeStart n).queue := by
  obtain ⟨short, keys, counts⟩ := ok
  have key : ∀ e ∈ m.queue, ((fun d : Entry => (d.latest.kindCode, d.latest.subject)) ∘
      fun d => if d.sameKey n then { d with latest := n } else d) e = (e.latest.kindCode, e.latest.subject) := fun e _ => by
    dsimp only [Function.comp]
    split
    · next key => exact ((Entry.sameKey_iff e n).1 key).symm
    · rfl
  refine ⟨(List.length_map _).trans_le short, ?_, fun d hd => ?_⟩
  · rw [Agent.completeStart, List.map_map, List.map_congr_left key]
    exact keys
  · obtain ⟨e, he, rfl⟩ := List.mem_map.1 hd
    have counted := counts e he
    split <;> exact counted

theorem startUp_queueOk (outcome : SettingsOutcome) (ids : List CarrierId) {s : State} (ok : queueOk s.mga.queue) :
    queueOk (startUp outcome ids s).mga.queue :=
  completeStart_queueOk _ (Agent.raiseAll_queueOk _ (Agent.raiseAll_queueOk _ ok))

theorem startUpLoading_queueOk {s : State} (ok : queueOk s.mga.queue) : queueOk (startUpLoading s).mga.queue := by
  unfold startUpLoading
  split
  · exact startUp_queueOk _ _ ok
  · next x _ => exact startUp_queueOk _ _ (s := s.load x) ok

theorem restartNow_queueOk (f : RestartForm) (s : State) : queueOk (restartNow f s).mga.queue := by
  cases f with
  | keep => exact startUp_queueOk _ _ (s := resetBlocks true _ s) queueOk_nil
  | reload => exact startUpLoading_queueOk (s := resetBlocks false _ s) queueOk_nil

theorem lineReset_queueOk {s : State} (ok : queueOk s.mga.queue) : queueOk (lineReset s).mga.queue := by
  unfold lineReset
  split
  · exact ok
  · exact queueOk_nil

theorem leaveReset_queueOk {s : State} (ok : queueOk s.mga.queue) : queueOk (leaveReset s).mga.queue := by
  unfold leaveReset
  split
  · exact ok
  · exact startUpLoading_queueOk ok

theorem resetInputRelease_queueOk {s : State} (ok : queueOk s.mga.queue) : queueOk (resetInputRelease s).mga.queue := by
  unfold resetInputRelease
  split
  · exact leaveReset_queueOk (s := { s with pins := { s.pins with resetInput := false } }) ok
  · exact ok

theorem suppliesSteady_queueOk {s : State} (ok : queueOk s.mga.queue) : queueOk (suppliesSteady s).mga.queue := by
  unfold suppliesSteady
  split
  · exact leaveReset_queueOk (s := { s with pins := { s.pins with powerHold := false } }) ok
  · exact ok

/-! ### The step -/

theorem StepPart.queueOk {s t : State} (part : StepPart s t) (ok : queueOk s.mga.queue) : queueOk t.mga.queue := by
  cases part with
  | taken rest => exact ok
  | requested v r => exact requestAct_queueOk v r ok
  | responded p x => rw [State.respond_mga, Agent.respond_queue]; exact ok
  | refreshed => exact Agent.takeNotice_queueOk ok _
  | worked n ord => exact slotWorked_queueOk n ord ok
  | sampled n line => exact (changeLevels_raised s _ _).queueOk ok
  | completed n => exact Agent.takeNotice_queueOk ok _
  | restarted f => exact restartNow_queueOk f s
  | holdoverExpiry => exact (holdoverExpiry_raised s).queueOk ok
  | laneGuardExpiry g l => exact (laneGuardExpiry_raised s g l).queueOk ok
  | overBudget g => exact (overBudget_raised s g).queueOk ok
  | missLimitReached g k sd => exact (missLimitReached_raised s g k sd).queueOk ok
  | hangExpiry g l k => exact (hangExpiry_raised s g l k).queueOk ok
  | fadeEnd id => exact (fadeEnd_raised s id).queueOk ok
  | gapEnd id => exact (gapEnd_raised s id).queueOk ok
  | liveSpeechLoss id => exact (liveSpeechLoss_raised s id).queueOk ok
  | trunkFrameArrival p bs => exact ok
  | spanUplinkFrameArrival p bs => exact (spanUplinkFrameArrival_raised s p bs).queueOk ok
  | storeProgramCompletion r => exact (storeProgramCompletion_raised s r).queueOk ok
  | storeEraseCompletion r => exact (storeEraseCompletion_raised s r).queueOk ok
  | settingsSaveCompletion r => exact (settingsSaveCompletion_raised s r).queueOk ok
  | powerOn => exact queueOk_nil
  | lineReset => exact lineReset_queueOk ok
  | resetInputRelease => exact resetInputRelease_queueOk ok
  | suppliesSteady => exact suppliesSteady_queueOk ok

/-! ### What raising a notice does (R197) -/

namespace Agent
variable {m : Agent} {n : Notice}

theorem absent_iff : (m.queue.any fun e => e.sameKey n) = false ↔
    ∀ d ∈ m.queue, (d.latest.kindCode, d.latest.subject) ≠ (n.kindCode, n.subject) := by
  simp only [List.any_eq_false, Entry.sameKey_iff, ne_eq]

theorem raise_of_present {front back : List Entry} {e : Entry} (queue : m.queue = front ++ e :: back)
    (key : (e.latest.kindCode, e.latest.subject) = (n.kindCode, n.subject))
    (others : ∀ d ∈ front ++ back, (d.latest.kindCode, d.latest.subject) ≠ (n.kindCode, n.subject)) :
    m.raise n = { m with queue := front ++ ⟨n, min 255 (e.count + 1)⟩ :: back } := by
  have here : e.sameKey n = true := (Entry.sameKey_iff e n).2 key
  have kept : ∀ xs : List Entry, (∀ d ∈ xs, d ∈ front ++ back) →
      (xs.map fun d => if d.sameKey n then (⟨n, min 255 (d.count + 1)⟩ : Entry) else d) = xs := fun xs sub =>
    (List.map_congr_left fun d hd => if_neg (mt (Entry.sameKey_iff d n).1 (others d (sub d hd)))).trans (List.map_id' xs)
  have present : (m.queue.any fun d => d.sameKey n) = true := by
    rw [queue, List.any_append, List.any_cons, here, Bool.true_or, Bool.or_true]
  rw [raise, if_pos present, queue, List.map_append, List.map_cons, here, if_pos rfl,
    kept front fun d => List.mem_append_left back, kept back fun d => List.mem_append_right front]

theorem raise_of_absent (absent : ∀ d ∈ m.queue, (d.latest.kindCode, d.latest.subject) ≠ (n.kindCode, n.subject)) :
    m.raise n = if m.queue.length < 32 then { m with queue := m.queue ++ [⟨n, 1⟩] } else { m with lost := true } :=
  if_neg (Bool.eq_false_iff.1 (absent_iff.2 absent))

end Agent
end Sys2Proof.Machine

namespace Sys2Proof.Proofs
open Sys2Proof Sys2Proof.Machine

/-- Settles O51: every part of a step raises notices, takes them into frames, or starts the queue anew, and each keeps its law; what raising does is
read case by case, and the keys from their table. -/
theorem stepKeepsNoticeQueue : Obligations.StepKeepsNoticeQueue := by
  refine ⟨keptByStep_of_parts (law := fun s => queueOk s.mga.queue) StepPart.queueOk, fun m n => ?_, ?_⟩
  · exact ⟨fun front back e queue key others => Agent.raise_of_present queue key others,
      fun absent room => (Agent.raise_of_absent absent).trans (if_pos room),
      fun absent full => (Agent.raise_of_absent absent).trans (if_neg full.not_gt), rfl, fun ns => rfl⟩
  · refine ⟨fun _ _ _ _ => rfl, fun p _ _ => ⟨?_, rfl⟩, fun _ => rfl, fun _ _ _ _ _ => ⟨rfl, rfl⟩, fun _ _ sd _ _ _ _ _ _ _ _ => ⟨?_, ?_, rfl, rfl⟩,
      fun _ _ _ _ _ _ _ _ _ => ⟨rfl, rfl, rfl, rfl, rfl⟩, fun _ _ _ _ _ => ⟨rfl, rfl, rfl⟩, fun _ _ _ => ⟨rfl, rfl, rfl⟩, fun _ _ _ _ _ => rfl⟩
    · cases p <;> rfl
    · cases sd <;> rfl
    · cases sd <;> rfl

end Sys2Proof.Proofs
end

section
/-! Requests before their kinds' own checks (R192, R204), what an answer touches (R194, R198, R199), and the agent's own requests, RESTART and CAUSECLR
(R202, R203). -/
namespace Sys2Proof.Machine

/-- A command that is a request carries one of a kind (Table 11-5). -/
theorem asRequest_eq_some {c : Instr} {p : TrunkId} {tag code : Nat} (request : asRequest c = some (p, tag, code)) :
    ∃ r : Request, c = commandOf p tag r ∧ requestCode r = code := by
  cases c with
  | rdrec _ _ sel part => cases request; exact ⟨.rdrec sel part, rfl, rfl⟩
  | carset _ _ a => cases request; exact ⟨.carset a, rfl, rfl⟩
  | caron _ _ n => cases request; exact ⟨.caron n, rfl, rfl⟩
  | caroff _ _ n => cases request; exact ⟨.caroff n, rfl, rfl⟩
  | carclr _ _ n => cases request; exact ⟨.carclr n, rfl, rfl⟩
  | trim _ _ n g v => cases request; exact ⟨.trim n g v, rfl, rfl⟩
  | grpset _ _ a => cases request; exact ⟨.grpset a, rfl, rfl⟩
  | sprst _ _ n => cases request; exact ⟨.sprst n, rfl, rfl⟩
  | incset _ _ n => cases request; exact ⟨.incset n, rfl, rfl⟩
  | incclr _ _ => cases request; exact ⟨.incclr, rfl, rfl⟩
  | profset _ _ a => cases request; exact ⟨.profset a, rfl, rfl⟩
  | annc _ _ a => cases request; exact ⟨.annc a, rfl, rfl⟩
  | ancan _ _ n => cases request; exact ⟨.ancan n, rfl, rfl⟩
  | voxset _ _ a => cases request; exact ⟨.voxset a, rfl, rfl⟩
  | pgopen _ _ n => cases request; exact ⟨.pgopen n, rfl, rfl⟩
  | pgdata _ _ off bs => cases request; exact ⟨.pgdata off bs, rfl, rfl⟩
  | pgcommit _ _ => cases request; exact ⟨.pgcommit, rfl, rfl⟩
  | blkerase _ _ n => cases request; exact ⟨.blkerase n, rfl, rfl⟩
  | blkguard _ _ n bar => cases request; exact ⟨.blkguard n bar, rfl, rfl⟩
  | msgdef _ _ a => cases request; exact ⟨.msgdef a, rfl, rfl⟩
  | msgclr _ _ n => cases request; exact ⟨.msgclr n, rfl, rfl⟩
  | trksel _ _ n => cases request; exact ⟨.trksel n, rfl, rfl⟩
  | timset _ _ limit v => cases request; exact ⟨.timset limit v, rfl, rfl⟩
  | save _ _ => cases request; exact ⟨.save, rfl, rfl⟩
  | restart _ _ n => cases request; exact ⟨.restart n, rfl, rfl⟩
  | causeclr _ _ => cases request; exact ⟨.causeclr, rfl, rfl⟩
  | _ => cases request

/-! ### The checks of R192 -/

section Checks
variable {p : TrunkId} {code : Nat} {s : State} (act : State → Answer) (free : s.held = false)
include free

theorem requestCommand_untagged : requestCommand p 0 code act s = .next (s.answered p 0 code .malformed []) := by
  simp [requestCommand, free, serve, check, refuse, State.answered]

theorem requestCommand_inactive {tag : Nat} (tagged : tag ≠ 0) (kind : code ≠ 1) (inactive : s.tif.settled ≠ some p) :
    requestCommand p tag code act s = .next (s.answered p tag code .notActive []) := by
  simp [requestCommand, free, serve, check, tagged, rdrecCode, kind, inactive, refuse, State.answered]

end Checks

/-! ### What an answer touches -/

/-- The field for a notice stands open in the frame of the port settled ACTIVE. -/
theorem TrunkSide.openField_eq_some {t : TrunkSide} {q : TrunkId} :
    t.openField = some q ↔ t.settled = some q ∧ (t.out q).map (·.notice) = some none := by
  unfold TrunkSide.openField
  cases t.settled with
  | none => simp
  | some p =>
    by_cases same : p = q
    · subst same
      cases frame : t.out p <;> simp [frame]
    · simp only [Option.some.injEq, same, false_and, iff_false]
      split
      · exact mt Option.some.inj same
      · exact Option.some_ne_none q ∘ Eq.symm

theorem Agent.sent_of_empty {m : Agent} (empty : m.queue = []) (o : Option TrunkId) : m.sent o = none := by
  unfold Agent.sent
  rw [empty]
  cases o <;> rfl

theorem Agent.sent_of_cons {m : Agent} {e : Entry} {rest : List Entry} (queue : m.queue = e :: rest) (q : TrunkId) :
    m.sent (some q) = some ⟨e, m.lost⟩ := by
  unfold Agent.sent
  rw [queue]

theorem Agent.sent_isSome (m : Agent) (o : Option TrunkId) : (m.sent o).isSome = true ↔ o ≠ none ∧ m.queue ≠ [] := by
  unfold Agent.sent
  cases o with
  | none => simp
  | some q => cases m.queue <;> simp

section Answered
variable (s : State) (p : TrunkId) (tag code : Nat) (st : Status) (body : List Byte)

/-- The agent after an answer: the response stands, and the oldest entry is taken where the field stands open. -/
theorem answered_mga : (s.answered p tag code st body).mga =
    let m := s.mga.respond p ⟨tag, code, st, body⟩
    if (s.mga.sent s.tif.openField).isSome then { m with queue := m.queue.tail, lost := false } else m := by
  cases p <;> exact congrArg Prod.fst (Agent.takeNotice_eq _ s.tif.openField)

theorem answered_response (q : TrunkId) :
    (s.answered p tag code st body).mga.response q = (s.mga.respond p ⟨tag, code, st, body⟩).response q :=
  Agent.takeNotice_response _ _ q

/-- A frame of the slot in course after an answer. -/
theorem answered_out (q : TrunkId) :
    let t := s.answered p tag code st body
    t.tif.out q = (s.tif.out q).map fun f =>
      { f with
        control := t.mga.response q
        summary := ⟨f.summary.ref, f.summary.active, max s.ict.latched s.ict.commanded, t.mga.queue.length, t.mga.lost⟩
        notice := if s.tif.openField = some q then s.mga.sent s.tif.openField else f.notice } := by
  have taken : ((s.mga.respond p ⟨tag, code, st, body⟩).takeNotice s.tif.openField).2 = s.mga.sent s.tif.openField := by
    rw [Agent.takeNotice_eq]
    cases p <;> rfl
  intro t
  rw [← taken]
  cases q <;> rfl

/-- The frames keep their number, the reference state and the ACTIVE port of the settlement, and their lanes. -/
theorem answered_frame (q : TrunkId) : ((s.answered p tag code st body).tif.out q).map (fun f => (f.hfn, f.summary.ref, f.summary.active, f.lanes)) =
    (s.tif.out q).map fun f => (f.hfn, f.summary.ref, f.summary.active, f.lanes) := by
  rw [answered_out, Option.map_map]
  rfl

theorem answered_notice (q : TrunkId) : ((s.answered p tag code st body).tif.out q).map (·.notice) =
    if s.tif.openField = some q then some (s.mga.sent s.tif.openField) else (s.tif.out q).map (·.notice) := by
  rw [answered_out, Option.map_map]
  split
  · next opened =>
    obtain ⟨f, sent, -⟩ := Option.map_eq_some_iff.1 (TrunkSide.openField_eq_some.1 opened).2
    rw [sent]
    rfl
  · rfl

end Answered

/-! ### RESTART and CAUSECLR -/

section Restart
variable {n : Nat} {s : State} {f : RestartForm}

theorem restart_of_far (far : 2 ≤ n) : restart n s = refuse .range s := by
  have unnamed : codeRestart n = none := by
    unfold codeRestart
    split
    · omega
    · omega
    · rfl
  rw [restart, unnamed]

theorem codeRestart_of_near (near : n ≤ 1) : codeRestart n = some (if n = 0 then .keep else .reload) := by
  obtain rfl | rfl := Nat.le_one_iff_eq_zero_or_eq_one.1 near <;> rfl

theorem restart_of_named (named : codeRestart n = some f) : restart n s =
    if s.ast.unit ≠ .idle ∨ s.ast.holder ≠ none ∨ s.ast.saving ≠ none then refuse .busy s
    else okWith { s with mga := { s.mga with restart := some f } } [] := by
  simp only [restart, named, Option.isSome_iff_ne_none]

end Restart
end Sys2Proof.Machine

namespace Sys2Proof.Proofs
open Sys2Proof Sys2Proof.Machine

/-- Settles O2: requests and events alike go through on a hub out of reset alone. -/
theorem heldHubIgnoresCommands : Obligations.HeldHubIgnoresCommands := by
  intro s c held acts
  cases c with
  | powerOn | lineReset | resetInputRelease | suppliesSteady => cases acts
  | slot | holdoverExpiry | laneGuardExpiry | overBudget | missLimitReached | hangExpiry | fadeEnd | gapEnd | liveSpeechLoss | trunkFrameArrival
  | spanUplinkFrameArrival | storeProgramCompletion | storeEraseCompletion | settingsSaveCompletion | restartTakesEffect =>
    exact eventCommand_held held _
  | _ => exact requestCommand_held held _ _

/-- Settles O3: the checks of R192 come before the kind's own; an answer is read off agent and frames, where what is taken into a frame is the oldest
entry exactly if the field stands open. -/
theorem requestsRefusedBeforeTheirKind : Obligations.RequestsRefusedBeforeTheirKind := by
  refine ⟨fun s c p tag code request free => ?_, fun s p tag code st body => ?_⟩
  · obtain ⟨r, rfl, rfl⟩ := asRequest_eq_some request
    rw [exec_commandOf]
    refine ⟨fun untagged => ?_, requestCommand_inactive _ free⟩
    subst untagged
    exact requestCommand_untagged _ free
  · intro t due
    have agent : t.mga = _ := answered_mga s p tag code st body
    have notice : ∀ q, (t.tif.out q).map (·.notice) = _ := answered_notice s p tag code st body
    have due_iff : ∀ q, due q ↔ s.tif.openField = some q ∧ s.mga.queue ≠ [] := fun q => by
      rw [TrunkSide.openField_eq_some, and_assoc]
    refine ⟨?_, ?_, ?_, ?_, rfl, rfl, rfl, answered_frame s p tag code st body, fun q f sent => ?_, fun q dueq => ?_, fun idle => ?_,
      fun q idle => ?_, rfl, rfl, rfl, rfl, rfl, rfl, rfl, rfl, rfl, rfl, rfl⟩
    · exact (answered_response s p tag code st body p).trans (Agent.respond_response _ _ _)
    · exact (answered_response s p tag code st body _).trans (Agent.respond_other _ _ _)
    · exact (Agent.takeNotice_causes _ _).trans (Agent.respond_causes _ _ _)
    · exact (Agent.takeNotice_restart _ _).trans (Agent.respond_restart _ _ _)
    · obtain ⟨g, -, rfl⟩ := Option.map_eq_some_iff.1 ((answered_out s p tag code st body q).symm.trans sent)
      exact ⟨rfl, rfl, rfl, rfl⟩
    · obtain ⟨opened, queued⟩ := (due_iff q).1 dueq
      obtain ⟨e, rest, queue⟩ := List.exists_cons_of_ne_nil queued
      have taken := Agent.sent_of_cons queue q
      rw [notice, if_pos opened, agent, opened, taken, queue]
      exact ⟨(congrArg List.tail (Agent.respond_queue _ _ _)).trans (congrArg List.tail queue), rfl, rfl⟩
    · have untaken : ¬(s.mga.sent s.tif.openField).isSome = true := fun taken => by
        obtain ⟨opened, queued⟩ := (Agent.sent_isSome _ _).1 taken
        obtain ⟨q, opened⟩ := Option.ne_none_iff_exists'.1 opened
        exact idle q ((due_iff q).2 ⟨opened, queued⟩)
      rw [agent, if_neg untaken]
      exact ⟨Agent.respond_queue _ _ _, Agent.respond_lost _ _ _⟩
    · rw [notice]
      split
      · next opened =>
        have empty : s.mga.queue = [] := not_not.1 fun queued => idle ((due_iff q).2 ⟨opened, queued⟩)
        rw [(TrunkSide.openField_eq_some.1 opened).2, Agent.sent_of_empty empty]
      · rfl

/-- Settles O43: the checks of RESTART in their order; neither request touches anything but the agent's own record. -/
theorem restartAndCauseclrSetTheAgent : Obligations.RestartAndCauseclrSetTheAgent := by
  intro s p tag hears
  refine ⟨fun n => ?_, exec_heard hears .causeclr rfl⟩
  intro busy
  have named := fun near => restart_of_named (s := s) (codeRestart_of_near (n := n) near)
  exact ⟨fun far => exec_heard hears (.restart n) (restart_of_far far),
    fun near stands => exec_heard hears (.restart n) ((named near).trans (if_pos stands)),
    fun near free => exec_heard hears (.restart n) ((named near).trans (if_neg free))⟩

end Sys2Proof.Proofs
end

section
/-! POWER_ON and LINE_RESET (R202, R204): the reset hub, which differs from the hub as delivered in its store, its draws, its causes and its holds
alone, and the store cut short (R180). -/
namespace Sys2Proof.Machine

theorem Table.make_const {α : Type} {n : Nat} (x : α) : (.make fun _ => x : Table α n) = .fill x :=
  Table.ext fun i => by rw [Table.get_make, Table.get_fill]

/-- A remote that its group does not configure (R95). -/
theorem setUpRemotes_of_unused {c : GroupConfig} (unused : c.form = .unused) :
    setUpRemotes c = .fill ⟨.a, false, none, none, .idle, .idle⟩ := by
  have idle : Remote.setUp c = fun _ => ⟨.a, false, none, none, .idle, .idle⟩ := by
    funext k
    simp [Remote.setUp, GroupConfig.configured, unused]
  rw [setUpRemotes, idle, Table.make_const]

/-- Table 9-2. -/
theorem defaultProfile_rows : defaultProfile = ⟨#v[⟨0, false, false, 16, false⟩, ⟨4, false, false, 16, false⟩, ⟨8, true, false, 12, true⟩,
    ⟨12, true, true, 8, true⟩]⟩ := by decide

theorem resetBlocks_eq (causes : CauseRecord) (s : State) : resetBlocks false causes s =
    { State.reset with
      fps := { Pacer.default with rateDraws := s.fps.rateDraws }
      ast := s.ast.afterReset
      mga := .fresh causes
      pins := s.pins
      pending := s.pending } := by
  have groups : (.make fun _ => .empty .default : Table Group 8) = .fill (.empty .default) := Table.make_const _
  have remotes : (.make fun _ => setUpRemotes .default : Table (Table Remote 6) 8) = .fill (setUpRemotes .default) := Table.make_const _
  simp only [resetBlocks, Bool.false_eq_true, if_false, groups, remotes]
  rfl

theorem lineReset_of_free {s : State} (free : s.pins.resetInput = false) :
    lineReset s = { resetBlocks false s.mga.causes.lineReset s with pins := { s.pins with resetInput := true } } :=
  if_neg (Bool.eq_false_iff.1 free)

theorem lineReset_of_asserted {s : State} (asserted : s.pins.resetInput = true) : lineReset s = s := if_pos asserted

theorem Store.cutShort_eq (t : Store) : t.cutShort = { t with blocks := t.cutShort.blocks } := by
  unfold Store.cutShort
  split <;> rfl

/-- What a reset leaves of the store: its blocks with the work under way cut short, contents, messages and settings, and nothing in flight. -/
theorem Store.afterReset_eq (t : Store) : t.afterReset =
    { t with
      blocks := t.cutShort.dropHeld.blocks, buffer := none, unit := .idle, holder := none, last := none, previous := none, saving := none } := by
  unfold Store.afterReset Store.dropHeld
  rw [t.cutShort_eq]
  split <;> rfl

end Sys2Proof.Machine

namespace Sys2Proof.Proofs
open Sys2Proof Sys2Proof.Machine

/-- Settles O44: both are the one reset of every block, with causes and holds of their own. -/
theorem powerOnAndLineResetAtOnce : Obligations.PowerOnAndLineResetAtOnce := by
  intro s failed cut blocks trunk context player profile reset
  have ended : s.ast.cutShort.blocks = cut := by
    unfold cut Store.cutShort
    cases s.ast.unit <;> rfl
  have stored : s.ast.cutShort.dropHeld.blocks = blocks := by
    rw [s.ast.cutShort_eq, ended]
    unfold blocks Store.dropHeld
    cases s.ast.holder <;> rfl
  have all : ∀ causes pins, { resetBlocks false causes s with pins := pins } = reset causes pins := by
    intro causes pins
    rw [resetBlocks_eq, State.reset, setUpRemotes_of_unused rfl, defaultProfile_rows, Store.afterReset_eq, stored]
    rfl
  exact ⟨congrArg _ (all _ _), fun free => congrArg _ ((lineReset_of_free free).trans (all _ _)), fun asserted => congrArg _ (lineReset_of_asserted asserted)⟩

end Sys2Proof.Proofs
end

section
/-! Start-up (R205): the detail of START completed as if it had been raised complete, since the allocator raises PLACEMENT alone; settings ABSENT,
LOADED and KEPT; and the ends of the two holds (R204, R212). -/
namespace Sys2Proof.Machine

/-! ### The allocator raises PLACEMENT alone -/

namespace Alloc
variable {a : Alloc} {g : GroupId} {row : ProfileRow}

/-- Every notice raised is PLACEMENT. -/
def SaysPlacements (a : Alloc) : Prop := ∀ n ∈ a.out, n.kindCode = 11

theorem SaysPlacements.say {b : Alloc} (said : a.SaysPlacements) (same : b.out = a.out) (c : CarrierId) (h : GroupId) (o : PlacementOutcome)
    (l : Option LaneId) : (b.say (.placement c h o l)).SaysPlacements := by
  intro n hn
  obtain old | new := List.mem_append.1 hn
  · exact said n (same ▸ old)
  · exact List.mem_singleton.1 new ▸ rfl

theorem SaysPlacements.give (said : a.SaysPlacements) (l : LaneId) (c : CarrierId) : (a.give g l c).SaysPlacements := said.say rfl _ _ _ _

theorem SaysPlacements.grantStep (w : List CarrierId) : ∀ {a : Alloc}, a.SaysPlacements → (grantStep g w a).SaysPlacements := by
  induction w with
  | nil => exact id
  | cons c w ih =>
    intro a said
    unfold Alloc.grantStep
    split
    · exact said
    · exact ih (said.give _ c)

theorem SaysPlacements.preemptStep (w : List CarrierId) : ∀ {a : Alloc}, a.SaysPlacements → (preemptStep g row w a).SaysPlacements := by
  induction w with
  | nil => exact id
  | cons c w ih =>
    intro a said
    unfold Alloc.preemptStep
    split
    · split
      · exact said
      · next l v _ =>
        have waiting : ((a.setPlacement v g (some .waiting)).joinHeadMobile g v).SaysPlacements := said
        exact ih ((waiting.give l c).say rfl _ _ _ _)
    · exact ih said

theorem SaysPlacements.enter (c : CarrierId) (said : a.SaysPlacements) : (enter row c a g).SaysPlacements := by
  unfold Alloc.enter
  split
  · exact said
  · exact .preemptStep _ (.grantStep _ said)

theorem SaysPlacements.activate (c : CarrierId) (said : a.SaysPlacements) : (a.activate row c).SaysPlacements := by
  have entered : ∀ (gs : List GroupId) {b : Alloc}, b.SaysPlacements → (gs.foldl (Alloc.enter row c) b).SaysPlacements := by
    intro gs
    induction gs with
    | nil => exact id
    | cons g gs ih => exact fun said => ih (said.enter c)
  exact entered _ said

theorem SaysPlacements.activateAll (ids : List CarrierId) :
    ∀ {a : Alloc} (made refused : Nat), a.SaysPlacements → (activateAll row ids (a, made, refused)).1.SaysPlacements := by
  induction ids with
  | nil => exact fun _ _ said => said
  | cons c ids ih =>
    intro a made refused said
    unfold Alloc.activateAll
    split
    · exact ih _ _ (said.activate c)
    · exact ih _ _ said

end Alloc

/-! ### Activations counted -/

/-- One activation of a start-up, counted as made or as refused by a check of R12 (R205). -/
def Alloc.countActivation (row : ProfileRow) (x : Alloc × Nat × Nat) (c : CarrierId) : Alloc × Nat × Nat :=
  match x.1.activationRefusal c with
  | none => (x.1.activate row c, x.2.1 + 1, x.2.2)
  | some _ => (x.1, x.2.1, x.2.2 + 1)

theorem Alloc.activateAll_eq_foldl (row : ProfileRow) (ids : List CarrierId) :
    ∀ x : Alloc × Nat × Nat, activateAll row ids x = ids.foldl (countActivation row) x := by
  induction ids with
  | nil => exact fun _ => rfl
  | cons c ids ih =>
    intro x
    rw [activateAll, List.foldl_cons, ← ih, countActivation]
    cases x.1.activationRefusal c <;> rfl

/-! ### START -/

namespace Agent
variable (m : Agent) {n x : Notice}

/-- The detail of START completed before a notice of another kind is raised, or after it. -/
theorem completeStart_raise (other : n.kindCode ≠ x.kindCode) : (m.raise n).completeStart x = (m.completeStart x).raise n := by
  have apart : ∀ e : Entry, e.sameKey n = true → e.sameKey x = false := fun e key => by
    have kind := (Prod.mk.inj ((Entry.sameKey_iff e n).1 key)).1
    exact Bool.eq_false_iff.2 fun keyx => other (kind.symm.trans (Prod.mk.inj ((Entry.sameKey_iff e x).1 keyx)).1)
  have key : ∀ e : Entry, (if e.sameKey x then { e with latest := x } else e).sameKey n = e.sameKey n := fun e => by
    split
    · next keyx =>
      obtain ⟨kind, subject⟩ := Prod.mk.inj ((Entry.sameKey_iff e x).1 keyx)
      simp only [Entry.sameKey, kind, subject]
    · rfl
  have fresh : ∀ k, (⟨n, k⟩ : Entry).sameKey x = false := fun k => apart _ ((Entry.sameKey_iff _ n).2 rfl)
  have any : (m.completeStart x).queue.any (·.sameKey n) = m.queue.any (·.sameKey n) := by
    simp only [completeStart, List.any_map, Function.comp_def, key]
  have length : (m.completeStart x).queue.length = m.queue.length := List.length_map _
  unfold raise
  rw [any, length]
  split
  · simp only [completeStart, List.map_map]
    congr 1
    refine List.map_congr_left fun e _ => ?_
    simp only [Function.comp, key]
    cases keyn : e.sameKey n with
    | true => simp only [if_true, fresh, apart e keyn, Bool.false_eq_true, if_false]
    | false => simp only [Bool.false_eq_true, if_false]
  · split
    · simp only [completeStart, List.map_append, List.map_cons, List.map_nil, fresh, Bool.false_eq_true, if_false]
    · rfl

theorem completeStart_raiseAll (ns : List Notice) (others : ∀ n ∈ ns, n.kindCode ≠ x.kindCode) :
    ∀ m : Agent, (m.raiseAll ns).completeStart x = (m.completeStart x).raiseAll ns := by
  induction ns with
  | nil => exact fun _ => rfl
  | cons n ns ih =>
    intro m
    obtain ⟨other, others⟩ := List.forall_mem_cons.1 others
    exact (ih others (m.raise n)).trans (congrArg (Agent.raiseAll · ns) (m.completeStart_raise other))

end Agent

/-- A start-up with nothing queued: START is the oldest notice, with the counts of the activations from the first (R205). -/
theorem startUp_eq {u : State} (empty : u.mga.queue = []) (o : SettingsOutcome) (ids : List CarrierId) :
    let x := Alloc.activateAll u.ict.row ids (u.alloc, 0, 0)
    startUp o ids u =
      { u with
        ctb := x.1.ctb
        lal := x.1.lal
        ucb := { u.ucb with gates := x.1.gates }
        mga := Agent.raiseAll { u.mga with queue := [⟨.start u.mga.causes o x.2.1 x.2.2, 1⟩] } x.1.out } := by
  intro x
  let start := Notice.start u.mga.causes o
  have said : x.1.SaysPlacements := Alloc.SaysPlacements.activateAll ids (a := u.alloc) 0 0 nofun
  have raised : u.mga.raiseAll [start 0 0] = { u.mga with queue := [⟨start 0 0, 1⟩] } := by
    refine (Agent.raise_of_absent (by rw [empty]; exact nofun)).trans ?_
    rw [empty]
    rfl
  have causes : ((u.mga.raiseAll [start 0 0]).raiseAll x.1.out).causes = u.mga.causes := by rw [Agent.raiseAll_causes, Agent.raiseAll_causes]
  have completed : startUp o ids u = { u.withAlloc x.1 with
      mga := ((u.mga.raiseAll [start 0 0]).raiseAll x.1.out).completeStart
        (.start ((u.mga.raiseAll [start 0 0]).raiseAll x.1.out).causes o x.2.1 x.2.2) } := rfl
  rw [completed, causes, Agent.completeStart_raiseAll _ (fun n hn => by rw [said n hn]; exact nofun), raised]
  rfl

theorem startUpLoading_of_absent {u : State} (absent : u.ast.settings = none) : startUpLoading u = startUp .absent [] u := by
  rw [startUpLoading, absent]

theorem startUpLoading_of_valid {u : State} {x : Snapshot} (valid : u.ast.settings = some x) :
    startUpLoading u = startUp .loaded (startActiveIds (u.load x).ctb) (u.load x) := by
  rw [startUpLoading, valid]

/-- A load activates the carriers that the area holds with start-active set and not FREE (R20). -/
theorem startActiveIds_load (u : State) (x : Snapshot) : startActiveIds (u.load x).ctb =
    (List.finRange 64).filter fun c => (x.carriers.get c).state != .free && (x.carriers.get c).fields.startActive := by
  refine List.filter_congr fun c _ => ?_
  have loaded : (u.load x).ctb.get c = (x.carriers.get c).loaded := Table.get_make _ c
  rw [loaded, Carrier.loaded]
  split
  · next free => simp [free, Carrier.default]
  · next used => simp [used]

theorem Store.afterReset_settings (t : Store) : t.afterReset.settings = t.settings := by rw [Store.afterReset_eq]

/-- What KEEP keeps across the reset of every block: group configurations with their remotes set up anew, carriers, parameters, limit and trim, line
level and profile (R21, R203). -/
theorem resetBlocks_keep (causes : CauseRecord) (s : State) :
    let u := resetBlocks false causes s
    resetBlocks true causes s =
      { u with
        fps := { u.fps with holdLimit := s.fps.holdLimit, trim := s.fps.trim }
        ctb := .make fun c => (s.ctb.get c).kept
        lal := .make fun g => .empty (configOf s.lal g)
        sif := { u.sif with remotes := .make fun g => setUpRemotes (configOf s.lal g) }
        bku := { u.bku with params := s.bku.params }
        ict := .fresh s.ict.lineLevel s.ict.profile } := rfl

/-! ### The ends of the holds (R204, R212) -/

section Holds
variable {s : State}

theorem resetInputRelease_of_last (last : s.pins = ⟨true, false⟩) : resetInputRelease s = startUpLoading { s with pins := ⟨false, false⟩ } := by
  simp [resetInputRelease, leaveReset, State.held, last]

theorem suppliesSteady_of_last (last : s.pins = ⟨false, true⟩) : suppliesSteady s = startUpLoading { s with pins := ⟨false, false⟩ } := by
  simp [suppliesSteady, leaveReset, State.held, last]

theorem resetInputRelease_of_both (both : s.pins = ⟨true, true⟩) : resetInputRelease s = { s with pins := ⟨false, true⟩ } := by
  simp [resetInputRelease, leaveReset, State.held, both]

theorem suppliesSteady_of_both (both : s.pins = ⟨true, true⟩) : suppliesSteady s = { s with pins := ⟨true, false⟩ } := by
  simp [suppliesSteady, leaveReset, State.held, both]

theorem pins_of_free (free : s.held = false) : s.pins = ⟨false, false⟩ := by
  obtain ⟨input, power⟩ := Bool.or_eq_false_iff.1 free
  exact congrArg₂ Pins.mk input power

/-! ### RESTART_TAKES_EFFECT (R203) -/

theorem exec_restartTakesEffect : exec .restartTakesEffect s = .next (if s.held then s else restartTakesEffect s) := rfl

theorem restartTakesEffect_of_none (idle : s.mga.restart = none) : restartTakesEffect s = s := by rw [restartTakesEffect, idle]

theorem restartTakesEffect_of_pending {f : RestartForm} (pending : s.mga.restart = some f) : restartTakesEffect s = restartNow f s := by
  rw [restartTakesEffect, pending]

end Holds
end Sys2Proof.Machine

namespace Sys2Proof.Proofs
open Sys2Proof Sys2Proof.Machine

/-- Settles O45: each start-up is that of `startUp_eq`, on the hub with its holds ended, on the hub reset, or on the hub reset but for what KEEP
keeps; with a valid area, once that has been loaded. -/
theorem leavingResetStartsUp : Obligations.LeavingResetStartsUp := by
  unfold Obligations.LeavingResetStartsUp
  intro counted started bare lanes remotes loaded s
  have counts : counted = Alloc.countActivation := by
    funext row x c
    unfold counted Alloc.countActivation
    cases x.1.activationRefusal c <;> rfl
  have starts : ∀ (u : State) o ids, u.mga.queue = [] → u.ict.row = u.ict.profile.get 0 → startUp o ids u = started u o ids := by
    intro u o ids empty row
    rw [startUp_eq empty, row, Alloc.activateAll_eq_foldl, ← counts]
  have setUp : setUpRemotes = remotes := by
    funext c
    refine congrArg Table.make (funext fun k => ?_)
    rw [Remote.setUp, c.configured_eq]
    rfl
  have absents : ∀ u : State, u.mga.queue = [] → u.ast.settings = none →
      startUpLoading u = { u with mga := { u.mga with queue := [⟨.start u.mga.causes .absent 0 0, 1⟩] } } :=
    fun u empty absent => (startUpLoading_of_absent absent).trans (startUp_eq empty .absent [])
  have loads : ∀ (u : State) (x : Snapshot), u.mga.queue = [] → u.ast.settings = some x → startUpLoading u = loaded u x := by
    intro u x empty valid
    rw [startUpLoading_of_valid valid, startActiveIds_load, starts (u.load x) _ _ empty rfl, State.load, setUp]
    rfl
  refine ⟨fun empty => ?_, fun free => ?_, fun free => ?_, fun both => ?_, fun idle => ?_, fun f free pending => ?_⟩
  · intro u c last
    have leaves : exec c s = .next (startUpLoading u) := by
      obtain ⟨pins, rfl⟩ | ⟨pins, rfl⟩ := last
      · exact congrArg _ (resetInputRelease_of_last pins)
      · exact congrArg _ (suppliesSteady_of_last pins)
    exact ⟨fun absent => leaves.trans (congrArg _ (absents u empty absent)), fun x valid => leaves.trans (congrArg _ (loads u x empty valid))⟩
  · exact congrArg _ (if_neg (Bool.eq_false_iff.1 free))
  · exact congrArg _ (if_neg (Bool.eq_false_iff.1 free))
  · exact ⟨congrArg _ (resetInputRelease_of_both both), congrArg _ (suppliesSteady_of_both both)⟩
  · rw [exec_restartTakesEffect, restartTakesEffect_of_none idle, ite_self]
  · refine ⟨powerOn s, rfl, ?_⟩
    intro u
    have effect : exec .restartTakesEffect s = .next (restartNow f s) := by
      rw [exec_restartTakesEffect, if_neg (Bool.eq_false_iff.1 free), restartTakesEffect_of_pending pending]
    have pins : ({ u with pins := s.pins } : State) = u := by rw [pins_of_free free]
    have reset : resetBlocks false (s.mga.causes.restarted f) s = u := .trans (by cases f <;> rfl) pins
    have area : u.ast.settings = s.ast.settings := s.ast.afterReset_settings
    refine ⟨fun reload absent => ?_, fun reload x valid => ?_, fun keep => ?_⟩
    · subst reload
      rw [effect, restartNow, reset, startUpLoading_of_absent (area.trans absent), starts u .absent [] rfl rfl]
    · subst reload
      rw [effect, restartNow, reset, loads u x rfl (area.trans valid)]
    · subst keep
      rw [effect, restartNow, resetBlocks_keep, reset, setUp, starts _ _ _ rfl rfl]
      rfl

end Sys2Proof.Proofs
end

section
/-! The hub right after reset (R205): no carrier is ACTIVE, no group has a form, and the store is as delivered, so every law holds of it. -/
namespace Sys2Proof.Machine

theorem reset_unplaced (c : CarrierId) : (State.reset.ctb.get c).Unplaced :=
  (Table.get_fill Carrier.default c).symm ▸ unplaced_default

theorem reset_lal : State.reset.lal = .make fun _ => .empty .default := (Table.make_const _).symm

theorem reset_configOf (g : GroupId) : configOf State.reset.lal g = .default := by
  rw [reset_lal, configOf, Table.get_make]
  rfl

theorem reset_limiterOk : State.reset.limiterOk :=
  have rest : State.reset.AtRest := Table.get_fill _
  (limiterOk_iff _).2 ⟨fun _ => rest, rest.bounded (fun g => by rw [reset_configOf]; decide) nofun⟩

theorem reset_configOk : State.reset.configOk := by
  have forms : formsOf State.reset.lal = fun _ => .unused := reset_lal ▸ formsOf_empty fun _ => .default
  have agree : formsAgree (formsOf State.reset.lal) := forms ▸ formsAgree_unused
  exact (configOk_iff _).2 ⟨agree, by decide, nofun, .of_none_active fun c => (reset_unplaced c).1⟩

theorem reset_placementsOk : State.reset.placementsOk :=
  have places : State.reset.alloc.places = ⟨State.reset.ctb, .make fun _ => .empty .default⟩ := congrArg (Places.mk _) reset_lal
  (placementsOk_iff _).2 ((unplaced_ok _ (fun _ => .default) reset_unplaced).of_places places)

theorem reset_contextsOk : State.reset.contextsOk := by
  refine (contextsOk_iff _).2 (State.Follows.of_setUp fun g => ?_)
  rw [reset_configOf]
  exact Table.get_fill _ g

theorem reset_breakInOk : State.reset.breakInOk := resetBlocks_breakInOk false .poweredOn ⟨false, false⟩ .reset

/-- The store as delivered (R161). -/
theorem Store.default_ok : Store.default.Ok := by
  have block : ∀ b, Store.default.blocks.get b = .default := Table.get_fill _
  have erased : ∀ p, Store.default.pageState p = .erased := fun p => by
    rw [Store.pageState, block]
    exact Table.get_fill _ _
  refine Store.PagesOk.ok_of_idle ⟨fun m e entry => ?_, fun b => ?_, fun p _ => .inl (erased p), nofun⟩ rfl rfl
  · exact nomatch (Table.get_fill none m).symm.trans entry
  · rw [block]
    decide

end Sys2Proof.Machine

namespace Sys2Proof.Proofs
open Sys2Proof Sys2Proof.Machine

/-- Settles O60, law by law. -/
theorem resetMeetsEveryLaw : Obligations.ResetMeetsEveryLaw :=
  ⟨rfl, (rolesOk_iff _).2 (resetBlocks_roleOk false .poweredOn .reset), ⟨by decide, List.nodup_singleton _, by decide⟩,
    fun c _ _ active => absurd active (reset_unplaced c).1, reset_limiterOk, reset_configOk, reset_placementsOk,
    (windowOk_iff _).2 (resetBlocks_windowLaw false .poweredOn .reset), reset_contextsOk, reset_breakInOk, (storeOk_iff _).2 Store.default_ok⟩

end Sys2Proof.Proofs
end

section
/-! RDREC (R196, R210): the part asked for, what each selector finds, and the fields that records are made of, written out. -/
namespace Sys2Proof.Machine

/-! ### The part asked for (R210) -/

section Parts
variable {s : State} {sel : Selector} {part : Nat} {bs : List Byte}

theorem rdrec_of_refused {st : Status} (refused : s.record sel = .refused st) : rdrec sel part s = refuse st s := by
  simp only [rdrec, rdrecOf, refused]

theorem rdrec_of_part (recorded : s.record sel = .record bs) (has : part < partCount bs.length) :
    rdrec sel part s = okWith s (partBody bs part) := by
  simp only [rdrec, rdrecOf, recorded, if_neg (not_le.2 has)]

theorem rdrec_beyond (recorded : s.record sel = .record bs) (beyond : partCount bs.length ≤ part) : rdrec sel part s = refuse .range s := by
  simp only [rdrec, rdrecOf, recorded, if_pos beyond]

end Parts

/-! ### Fields (R210; entry 13) -/

theorem optionalField_eq (k : Nat) (x : Option Nat) : optionalField k x = flag x.isSome ++ be k (x.getD 0) := by cases x <;> rfl

theorem be_zero_succ (k : Nat) : be (1 + k) 0 = be 1 0 ++ be k 0 := by
  rw [Nat.add_comm, be, Nat.zero_div]
  rfl

theorem optionalRecord_eq (k : Nat) (x : Option (List Byte)) : optionalRecord k x = flag x.isSome ++ x.getD (be k 0) := by
  cases x with
  | none => exact be_zero_succ k
  | some bs => rfl

theorem trunkLaneCode_eq (t : Option TrunkLane) : trunkLaneCode t = (t.map (·.val)).getD 255 := by cases t <;> rfl

theorem active_code (t : TrunkSide) :
    t.active.map TrunkId.code = if t.a.role = .active then some 0 else if t.b.role = .active then some 1 else none := by
  unfold TrunkSide.active
  split
  · rfl
  · split <;> rfl

theorem posOf_succ (k : Pos) : posOf (k.val + 1) = some k := (if_neg (Nat.succ_ne_zero _)).trans (index_val k)

theorem posOf_of_far {m : Nat} (far : m = 0 ∨ 6 < m) : posOf m = none := by
  unfold posOf
  split
  · rfl
  · exact index_eq_none (by omega)

theorem codeSide_code (sd : Side) : codeSide (Side.code sd) = some sd := by cases sd <;> rfl

theorem codeSide_of_far {d : Nat} (far : 2 ≤ d) : codeSide d = none := by
  unfold codeSide
  split
  · omega
  · omega
  · rfl

theorem codePlayer_of_far {n : Nat} (far : 2 ≤ n) : codePlayer n = none := by
  unfold codePlayer
  split
  · omega
  · omega
  · rfl

theorem BreakIn.held_length (b : BreakIn) :
    b.held.length = b.queue.length + (if b.bp0.request.isSome then 1 else 0) + (if b.bp1.request.isSome then 1 else 0) := by
  have one : ∀ x : Option AnnRequest, x.toList.length = if x.isSome then 1 else 0 := fun x => by cases x <;> rfl
  rw [BreakIn.held, List.length_append, List.length_append, one, one]

theorem found_index {k n : Nat} (f : Fin k → List Byte) (i : Fin k) (named : n = i.val) : found (index k n) f = .record (f i) := by
  rw [named, index_val]
  rfl

theorem found_far {k n : Nat} (f : Fin k → List Byte) (far : k ≤ n) : found (index k n) f = .refused .range := by
  rw [index_eq_none far]
  rfl

theorem Intent.code_eq (i : Intent) : i.code = match i with
    | .finish .completed => 0
    | .finish .cancelled => 1
    | .finish .sourceLost => 2
    | .requeue => 3 := by
  cases i with
  | finish o => cases o <;> rfl
  | requeue => rfl

/-! ### What selectors of two or more numbers find -/

section Selectors
variable (s : State)

theorem State.record_carrier (c : CarrierId) : s.record (.carrier c.val) = .record (carrierRecord s c) := found_index _ c rfl

theorem State.record_group (g : GroupId) : s.record (.group g.val) = .record (groupRecord s g) := found_index _ g rfl

theorem State.record_storeBlock (b : BlockId) : s.record (.storeBlock b.val) = .record (storeBlockRecord s b) := found_index _ b rfl

theorem State.record_spanPort (q : SpanId) : s.record (.spanPort q.val) = .record (spanPortRecord s q) := found_index _ q rfl

theorem State.record_message (m : MessageId) : s.record (.message m.val) = .record (messageRecord s m) := found_index _ m rfl

theorem State.record_profileRow (k : Level) : s.record (.profileRow k.val) = .record (profileRecord s k) := found_index _ k rfl

theorem State.record_placement_of_placed {s : State} {c : CarrierId} {g : GroupId} {q : Placement} (used : (s.ctb.get c).state ≠ .free)
    (placed : (s.ctb.get c).placements.get g = some q) :
    s.record (.placement c.val g.val) = .record (placementRecord s c g q) := by
  simp only [State.record, index_val, placed]
  exact if_neg used

theorem State.record_placement_of_absent {s : State} {c : CarrierId} {g : GroupId}
    (absent : (s.ctb.get c).state = .free ∨ (s.ctb.get c).placements.get g = none) :
    s.record (.placement c.val g.val) = .refused .notFound := by
  simp only [State.record, index_val]
  cases placed : (s.ctb.get c).placements.get g with
  | none => rfl
  | some q => exact if_pos (absent.resolve_right fun unplaced => by cases placed.symm.trans unplaced)

theorem State.alloc_laneOf (g : GroupId) (c : CarrierId) :
    s.alloc.laneOf g c = (List.finRange 32).find? fun l => ((s.lal.get g).lanes.get l).owner == some c :=
  congrArg ((List.finRange 32).find? ·) (funext fun _ => (beq_eq_decide ..).symm)

theorem State.record_lane (g : GroupId) (l : LaneId) : s.record (.lane g.val l.val) = .record (laneRecord s g l) := by
  simp only [State.record, index_val]

theorem State.record_remote (g : GroupId) (k : Pos) : s.record (.remote g.val (k.val + 1)) = .record (remoteRecord s g k) := by
  simp only [State.record, index_val, posOf_succ]

theorem State.record_context (g : GroupId) (k : Pos) (sd : Side) :
    s.record (.context g.val (k.val + 1) (Side.code sd)) = .record (contextRecord s g k sd) := by
  simp only [State.record, index_val, posOf_succ, codeSide_code]

theorem State.record_placement_of_far {n m : Nat} (far : 64 ≤ n ∨ 8 ≤ m) : s.record (.placement n m) = .refused .range := by
  rw [State.record]
  obtain far | far := far
  · rw [index_eq_none far]
  · rw [index_eq_none far]
    cases index 64 n <;> rfl

theorem State.record_lane_of_far {n m : Nat} (far : 8 ≤ n ∨ 32 ≤ m) : s.record (.lane n m) = .refused .range := by
  rw [State.record]
  obtain far | far := far
  · rw [index_eq_none far]
  · rw [index_eq_none far]
    cases index 8 n <;> rfl

theorem State.record_remote_of_far {n m : Nat} (far : 8 ≤ n ∨ m = 0 ∨ 6 < m) : s.record (.remote n m) = .refused .range := by
  rw [State.record]
  obtain far | far := far
  · rw [index_eq_none far]
  · rw [posOf_of_far far]
    cases index 8 n <;> rfl

theorem State.record_context_of_far {n m d : Nat} (far : 8 ≤ n ∨ m = 0 ∨ 6 < m ∨ 2 ≤ d) : s.record (.context n m d) = .refused .range := by
  rw [State.record]
  rw [← or_assoc (a := m = 0)] at far
  obtain far | far | far := far
  · rw [index_eq_none far]
  · rw [posOf_of_far far]
    cases index 8 n <;> rfl
  · rw [codeSide_of_far far]
    cases index 8 n <;> cases posOf m <;> rfl

end Selectors

section Store
variable {s : State} {n off count : Nat}

theorem storePageRecord_of_far (far : 2048 ≤ n ∨ 511 < off ∨ count = 0 ∨ 32 < count ∨ 512 < off + count) :
    storePageRecord s n off count = .refused .range := by
  unfold storePageRecord
  split
  · rfl
  · next p named =>
    obtain far | far := far
    · cases (index_eq_none far).symm.trans named
    · exact if_pos far

theorem storePageRecord_of_near (p : PageId) (near : off ≤ 511) (one : 1 ≤ count) (few : count ≤ 32) (within : off + count ≤ 512) :
    storePageRecord s p.val off count =
      .record (be 1 (s.ast.pageState p).code ++ counted ((List.range count).map fun k => [s.ast.sample p (off + k)])) := by
  simp only [storePageRecord, index_val]
  exact if_neg (by omega)

end Store
end Sys2Proof.Machine

namespace Sys2Proof.Proofs
open Sys2Proof Sys2Proof.Machine

/-- Settles O4: the parts of a record, and each selector's record field by field. -/
theorem readAnswersAPartAndChangesNothing : Obligations.ReadAnswersAPartAndChangesNothing := by
  refine ⟨fun s p tag sel part free tagged => ?_, fun s => ?_⟩
  · have answered := requestCommand_read free tagged (p := p) (rdrec sel part)
    refine ⟨fun st refused => ?_, fun bs recorded => ⟨fun has => ?_, fun beyond => ?_⟩⟩
    · rw [rdrec_of_refused refused] at answered
      exact answered
    · rw [rdrec_of_part recorded has] at answered
      exact answered
    · rw [rdrec_beyond recorded beyond] at answered
      exact answered
  · intro bit opt sideNo words hfn composite listed destNo laneNo request held result
    -- Each field function that the statement writes out is one of the model's own, and stands for it from here on.
    have bits : bit = flag := rfl
    have optional : opt = optionalField := funext fun k => funext fun x => (optionalField_eq k x).symm
    have optionalNo : hfn = optionalHfn := funext fun x => (optionalField_eq 2 _).symm
    have record : composite = optionalRecord := funext fun k => funext fun x => (optionalRecord_eq k x).symm
    have lists : listed = counted := rfl
    have destination : destNo = fun t => be 1 (trunkLaneCode t) := funext fun t => (congrArg (be 1) (trunkLaneCode_eq t)).symm
    have holds : held = s.bku.held.length := s.bku.held_length.symm
    have side : sideNo = Side.code := funext fun sd => by cases sd <;> rfl
    have lane : laneNo = LaneState.code := funext fun st => by cases st <;> rfl
    have requested : request = AnnRequest.bytes := by
      funext q
      unfold AnnRequest.bytes request
      cases q.carriers <;> simp only [List.append_assoc] <;> rfl
    have resulted : result = HistoryResult.bytes := funext fun o => by
      cases o with
      | program q x => cases x <;> rfl
      | erase b x => cases x <;> rfl
    clear_value bit opt hfn composite listed destNo held sideNo laneNo request result
    subst bits optional optionalNo record lists destination holds side lane requested resulted
    refine ⟨fun c => ⟨?_, fun g => ⟨fun absent => ?_, fun q used recorded => ?_⟩⟩, fun g => ⟨?_, fun l => ?_⟩,
      fun n m => ⟨found_far _, s.record_placement_of_far, found_far _, s.record_lane_of_far⟩, fun id n named => ?_,
      fun n => ⟨fun far => ?_, fun far => if_pos far, fun near empty => ?_, fun q near queued => ?_⟩, fun b => ?_,
      fun q off count near one few within => ?_, fun n off count => ⟨found_far _, storePageRecord_of_far⟩, ?_, fun g k => ⟨?_, fun sd => ?_⟩,
      fun n m d => ⟨s.record_remote_of_far, s.record_context_of_far⟩, fun q => ?_, fun n => found_far _, fun p n named => ?_, fun n far => ?_, ?_,
      fun m => ?_, fun n => found_far _, rfl, fun k => ?_, fun n => found_far _, ?_, ?_⟩
    · exact s.record_carrier c
    · exact State.record_placement_of_absent absent
    · rw [State.record_placement_of_placed used recorded, placementRecord, s.alloc_laneOf]
      rfl
    · exact s.record_group g
    · exact s.record_lane g l
    · rw [State.record, named, found, playerRecord, funext Intent.code_eq]
      rfl
    · rw [State.record, codePlayer_of_far far, found]
    · rw [State.record, queueRecord, if_neg near.not_gt, empty]
    · rw [State.record, queueRecord, if_neg near.not_gt, queued]
    · exact s.record_storeBlock b
    · exact storePageRecord_of_near q near one few within
    · rw [State.record, storeStatusRecord]
      cases s.ast.unit <;> rfl
    · rw [s.record_remote, remoteRecord, GroupConfig.configured_eq]
      rfl
    · rw [s.record_context, contextRecord]
      simp only [words, List.flatMap_cons, List.flatMap_nil, List.append_nil, ← List.append_assoc]
      rfl
    · rw [s.record_spanPort, spanPortRecord]
      simp only [words, List.flatMap_cons, List.flatMap_nil, List.append_nil, ← List.append_assoc]
      rfl
    · rw [State.record, named, found, trunkPortRecord]
      simp only [words, List.flatMap_cons, List.flatMap_nil, List.append_nil, ← List.append_assoc]
      rfl
    · rw [State.record, codeTrunk_of_far far, found]
    · rw [State.record, referenceRecord, active_code]
      simp only [words, List.flatMap_cons, List.flatMap_nil, List.append_nil, ← List.append_assoc]
      rfl
    · exact s.record_message m
    · exact s.record_profileRow k
    · rw [State.record, incidentRecord]
      cases s.ict.asserted <;> rfl
    · rfl

end Sys2Proof.Proofs
end

section
/-! The step, read from the front of the queue. -/
namespace Sys2Proof.Machine

/-- The command at the front is carried out on the hub with the rest of the queue. -/
theorem step_of_pending_cons {s : State} {c : Instr} {rest : List Instr} (h : s.pending = c :: rest) :
    step s = exec c { s with pending := rest } := by
  rw [step, h]

/-- The model's idling on an empty queue (entry 2). -/
theorem step_of_pending_nil {s : State} (h : s.pending = []) : step s = .next s := by
  rw [step, h]

end Sys2Proof.Machine

namespace Sys2Proof.Proofs
open Sys2Proof Sys2Proof.Machine

/-- Settles O1: one equation of the step for each form of the queue. -/
theorem stepTakesTheFrontCommand : Obligations.StepTakesTheFrontCommand :=
  ⟨fun _ _ _ => step_of_pending_cons, fun _ => step_of_pending_nil⟩

end Sys2Proof.Proofs
end
